-- ==== Sys2Proof/Word.lean ====
section
/-! DEFINITION. The word types of the Loksen 2116 (spec/00_scope.md, section 0.5). -/

namespace Sys2Proof

/-- A data byte, 00H to FFH. -/
abbrev Byte := BitVec 8

/-- An address, 20 bits, 00000H to FFFFFH: the same for the host and the memory (0.5). -/
abbrev Addr := BitVec 20

/-- A line number: the address divided by 16, 0000H to FFFFH (0.5). -/
abbrev Line := BitVec 16

/-- The position of a byte within its line, 0 to 15 (0.5). -/
abbrev Offset := BitVec 4

end Sys2Proof
end

