-- ==== Sys2Proof/Syntax.lean ====
section
/-! DEFINITION. The commands: one constructor per row of spec/opcode_table.json. No row gives bits
or fields; the operands are what the row's rules make the step depend on. -/

namespace Sys2Proof

/-- A host bus line that the host returns high: HCS#, HOE# or HWE# (R118, R119, R120). -/
inductive HostLine
  | hcs | hoe | hwe
  deriving DecidableEq, Repr

/-- The events of the part, each one whole and indivisible step (spec/95). -/
inductive Instr
  /-- POR_ASSERT (R170, R116, R82): VDD falls below 2.20 V. -/
  | porAssert
  /-- POR_RELEASE (R161): VDD rises above 2.30 V; the operands are the levels of HREQ, RST# and MRDY
  (true is high) and VSEN in millivolts, rounded down, as the pins stand (notes/assumptions/12.md). -/
  | porRelease (hreq rst mrdy : Bool) (vsen : Nat)
  /-- RST_FALLING (R128). -/
  | rstFalling
  /-- RST_RISING (R129). -/
  | rstRising
  /-- HREQ_RISING (R54, R48). -/
  | hreqRising
  /-- HREQ_FALLING (R59, R48). -/
  | hreqFalling
  /-- HOST_READ (R121): the host selects the part and lowers HOE# with this address. -/
  | hostRead (addr : Addr)
  /-- STATUS_BYTE_0_READ (R138): a host read of FFF00H. -/
  | statusByte0Read
  /-- STATUS_BYTE_READ (R139): a host read of FFF00H plus the offset, 1 to 15. -/
  | statusByteRead (offset : Offset)
  /-- HOST_WRITE (R32): the host selects the part and lowers HWE# with this address and byte. -/
  | hostWrite (addr : Addr) (byte : Byte)
  /-- STATUS_LINE_WRITE (R33): a host write to FFF00H plus the offset. -/
  | statusLineWrite (offset : Offset) (byte : Byte)
  /-- ACK_WRITE (R136, R126): a host write to FFF10H. -/
  | ackWrite (byte : Byte)
  /-- FENCE_WRITE (R127, R13): a host write to FFF11H. -/
  | fenceWrite (byte : Byte)
  /-- GENERATION_WRITE (R155, R127): a host write to FFF22H. -/
  | generationWrite (byte : Byte)
  /-- HOST_ACCESS_END (R119): the host returns this line high after the answer. -/
  | hostAccessEnd (line : HostLine)
  /-- EARLY_RELEASE (R120): the host returns this line high before the answer. -/
  | earlyRelease (line : HostLine)
  /-- SAMPLE (R70): the sample timer expires with VSEN at this many millivolts, rounded down. -/
  | sample (vsen : Nat)
  /-- QUEUE_EMPTY_REPORT (R65): the mode controller takes a queue-empty report. -/
  | queueEmptyReport
  /-- STALL_EXPIRY (R40). -/
  | stallExpiry
  /-- GAP_EXPIRY (R89). -/
  | gapExpiry
  /-- RETRY_PAUSE_EXPIRY (R95). -/
  | retryPauseExpiry
  /-- RAMP_STEP (R91). -/
  | rampStep
  /-- WRITE_STROBE_END (R110): the write strobe ends with MRDY at this level (true is high). -/
  | writeStrobeEnd (mrdy : Bool)
  /-- MRDY_READY (R110): MRDY goes high. -/
  | mrdyReady
  /-- WRITE_TIMEOUT (R111): the write timeout timer reaches 2 ms. -/
  | writeTimeout
  /-- READ_STROBE_END (R109): the read access time ends. -/
  | readStrobeEnd
  deriving DecidableEq, Repr

end Sys2Proof
end

