-- ==== Sys2Proof/Decode.lean ====
section
/-! DEFINITION. The command a word spells. spec/opcode_table.json gives no row any bits: the part is
reached by events, not by encoded words, so no word spells a command (notes/assumptions/26.md). -/

namespace Sys2Proof

/-- No row of the table has an encoding, so every word is answered `none`. -/
def decodeTableWord (_nbits _w : Nat) : Option Instr := none

end Sys2Proof
end

