-- ==== Sys2Proof/Config.lean ====
section
/-! DEFINITION. The free values of the model: constants without a body, applied to the counter
`State.freeIndex`, so that no proof can know them. Each is a value or an order that the manual
leaves open (notes/assumptions/5.md, 7.md, 9.md, 31.md, 32.md). -/

namespace Sys2Proof.Config

/-- The byte on MD7–MD0 at the end of a read strobe where the manual does not say it: the memory
was still busy at the 2 ms bound (R109), or the byte at the address is unknown (R111, R114, R116).
Free value, notes/assumptions/5.md; safe. -/
opaque freeByte : Nat → Byte

/-- Whether a request that another block makes as a result of a completion arrives after the grant
decision at that access's end (R106: it "is not counted if it is made after the decision").
Free value, notes/assumptions/7.md; safe. -/
opaque requestIsLate : Nat → Bool

/-- Whether a faulted write has disturbed the byte one address below its own: R111 says that a
neighbouring byte may also have been disturbed. Free value, notes/assumptions/9.md; safe for the bytes
at adjacent addresses. -/
opaque disturbsBelow : Nat → Bool

/-- The same for the byte one address above (R111). Free value, notes/assumptions/9.md; safe
for the bytes at adjacent addresses. -/
opaque disturbsAbove : Nat → Bool

/-- Which of two requests that reach an IDLE port together is taken first (R104): true for the LOAD
request of a reload, false for the DRAIN request of a head claim, where one queued generation byte
brings both. Free value, notes/assumptions/31.md; safe. -/
opaque loadBeforeDrain : Nat → Bool

/-- Whether the HOLD_ENTERED notice of the entry that ends start-up is taken after the hand-over of a
waiting ack byte (R136: either may be taken first). Free value, notes/assumptions/32.md; safe. -/
opaque noticeAfterAck : Nat → Bool

end Sys2Proof.Config
end

