-- ==== Sys2Proof/Machine/State.lean ====
section
/-! DEFINITION. The state of the part as plain data, block by block as spec/00_scope.md Table 0-1
names them, and the state with power-on reset asserted. INVENTORY.md lists every field with its
rule and reset value. -/

namespace Sys2Proof.Machine

open Sys2Proof

/-! ## Pins -/

/-- The levels at the part's input pins (Table 0-2); `true` is high. HCS#, HOE# and HWE# are active
low. VSEN is in millivolts, rounded down (notes/assumptions/12.md). -/
structure Pins where
  hreq : Bool
  rst  : Bool
  hcs  : Bool
  hoe  : Bool
  hwe  : Bool
  ha   : Addr
  hd   : Byte
  mrdy : Bool
  vsen : Nat
  deriving DecidableEq, Repr

/-! ## Memory -/

/-- The contents of the memory on the memory bus: the listed bytes in rising address order, and the
addresses, rising, whose byte is unknown (R111, R114, R116). -/
structure Memory where
  cells   : List Host.Cell
  unknown : List Nat
  deriving DecidableEq, Repr

/-! ## Host port (chapter 7) -/

/-- What a host access does, with the address and byte taken at its beginning (R117, R118); also the
kind, address and byte of a memory port request (R104). -/
inductive BusOp
  | read (addr : Addr)
  | write (addr : Addr) (byte : Byte)
  deriving DecidableEq, Repr

/-- The wait kinds of Table 7-1. -/
inductive WaitKind
  | startUp | reload | closing
  deriving DecidableEq, Repr

/-- The stall kinds of Table 7-1. A slot stall keeps the merge flag that its write is presented with
again (R41). -/
inductive StallKind
  | slot (merge : Bool)
  | block
  deriving DecidableEq, Repr

/-- The answers of R119. -/
inductive Answer
  | data (byte : Byte)
  | done
  | err
  deriving DecidableEq, Repr

/-- The stages of Table 7-1. -/
inductive Stage
  | waiting (kind : WaitKind)
  | stalled (kind : StallKind)
  | onPort
  | answered (answer : Answer)
  deriving DecidableEq, Repr

/-- The host access in progress (R117). -/
structure HostAccess where
  op       : BusOp
  stage    : Stage
  released : Bool
  deriving DecidableEq, Repr

/-- The host port (R117). `stallTimer` is stopped (`none`) or holds the instant it expires. `orphan`
says that a granted HOST access which RST# cancelled still runs on the memory port (R128, R129). -/
structure HostPort where
  access     : Option HostAccess
  stallTimer : Option Nat
  rstHigh    : Bool
  orphan     : Bool
  deriving DecidableEq, Repr

/-! ## Hold queue (chapter 1) -/

/-- The two states of an entry (R4). -/
inductive EntryState
  | pending | draining
  deriving DecidableEq, Repr

/-- The two kinds of an entry (Table 1-1). The present set and its bytes are one list of
(offset, byte), offsets rising. -/
inductive EntryBody
  | data (line : Line) (bytes : List Host.Cell)
  | fence (tag : Byte)
  deriving DecidableEq, Repr

/-- A queue entry (R2, R3, R4). -/
structure Entry where
  body  : EntryBody
  state : EntryState
  deriving DecidableEq, Repr

/-! ## Mode controller (chapter 3) -/

/-- The operating modes (R46). -/
inductive Mode
  | startup | normal | entering | hold | drain | closing
  deriving DecidableEq, Repr

/-- The hold reasons (R46). -/
inductive HoldReason
  | auto | forced
  deriving DecidableEq, Repr

/-- The status writes the controller can wait for (R46, R49). -/
inductive AwaitedKind
  | held | draining | final
  deriving DecidableEq, Repr

/-- The awaited write's marker; `begun` says that the write it names has begun (R49). -/
structure Awaited where
  kind  : AwaitedKind
  begun : Bool
  deriving DecidableEq, Repr

/-- The mode controller (R46). -/
structure ModeController where
  mode    : Mode
  reason  : HoldReason
  hreq    : Bool
  awaited : Option Awaited
  deriving DecidableEq, Repr

/-! ## Supply monitor (chapter 4) -/

/-- The class of one sample (R70). -/
inductive SupplyClass
  | low | marginal | good
  deriving DecidableEq, Repr

/-- The monitor state (R69). -/
inductive MonitorState
  | good | warned
  deriving DecidableEq, Repr

/-- The running sample timer: the instant of the last sample and the instant the next is due
(R69, R71). -/
structure SampleTimer where
  last : Nat
  due  : Nat
  deriving DecidableEq, Repr

/-- The supply monitor (R69); `timer` is `none` while the sample timer is stopped. -/
structure SupplyMonitor where
  state       : MonitorState
  warnRun     : Nat
  recoveryRun : Nat
  timer       : Option SampleTimer
  deriving DecidableEq, Repr

/-! ## Drain engine (chapter 5) -/

/-- The engine states of Table 5-1. -/
inductive EngineState
  | stopped | emptyWait | writing | wait | pause | stopping
  deriving DecidableEq, Repr

/-- The engine's awaited status write (R83, R89): none, requested and not yet begun, or begun. -/
inductive StatusAwait
  | nothing | requested | begun
  deriving DecidableEq, Repr

/-- The write of a head claim: its kind, address and byte (R83, R86). -/
structure DrainWrite where
  fence : Bool
  addr  : Addr
  byte  : Byte
  deriving DecidableEq, Repr

/-- The drain engine (R83). A timer is stopped (`none`) or holds the instant it expires. -/
structure DrainEngine where
  state       : EngineState
  rampLevel   : Nat
  rampTimer   : Option Nat
  gapTimer    : Option Nat
  retryTimer  : Option Nat
  attempts    : Nat
  awaited     : StatusAwait
  lastClass   : SupplyClass
  openLoss    : Bool
  outstanding : Option DrainWrite
  deriving DecidableEq, Repr

/-! ## Memory port (chapter 6) -/

/-- The requesters (Table 6-2). -/
inductive Requester
  | status | load | host | drain
  deriving DecidableEq, Repr

/-- The phases of Table 6-1. `readStrobe busy`: the ready wait ended at the 2 ms bound with MRDY low
(R109). `writeStrobe late`: the write timeout reached 2 ms within the strobe (R111). -/
inductive Phase
  | readyWait
  | readStrobe (busy : Bool)
  | writeStrobe (late : Bool)
  | busyWatch
  deriving DecidableEq, Repr

/-- The access in progress (R103); the port state is READ or WRITE by its kind. -/
structure PortAccess where
  requester : Requester
  op        : BusOp
  phase     : Phase
  deriving DecidableEq, Repr

/-- The waiting requests, at most one for each requester (R103, R104). -/
structure Waiting where
  status : Option BusOp
  load   : Option BusOp
  host   : Option BusOp
  drain  : Option BusOp
  deriving DecidableEq, Repr

/-- The alternation marker: HOST or DRAIN, whichever was granted most recently (R103). -/
inductive Marker
  | host | drain
  deriving DecidableEq, Repr

/-- The memory port (R103); `access` is `none` in IDLE. `timeout` is stopped (`none`) or holds the
instant it reaches 2 ms from the grant. -/
structure MemoryPort where
  access  : Option PortAccess
  waiting : Waiting
  marker  : Marker
  timeout : Option Nat
  deriving DecidableEq, Repr

/-! ## Status unit (chapter 8) -/

/-- The safety states (Table 9-4). -/
inductive Safety
  | clean | atRisk | held | draining
  deriving DecidableEq, Repr

/-- A copy of every field of the status shadow but the check byte, which is computed (R132). It is
the snapshot of R138 and the write image of R143. -/
structure Shadow where
  mode         : Mode
  safety       : Safety
  reason       : HoldReason
  unmarked     : Bool
  warned       : Bool
  causes       : Byte
  fenceLoss    : Bool
  fenceUnknown : Bool
  openLoss     : Bool
  supplyClass  : SupplyClass
  occupancy    : Nat
  fences       : Nat
  lastTag      : Byte
  deferred     : BitVec 16
  merged       : BitVec 16
  rejected     : Byte
  discarded    : Byte
  episodes     : Byte
  dropped      : Byte
  generation   : Byte
  deriving DecidableEq, Repr

/-- The status unit's own fields (R132, R133, R134, R138). `causes` holds the edge causes in the bit
order of status byte 1; the level cause WARN is read from the monitor state (R135). The shadow's
other fields are read from the blocks that own them (notes/assumptions/16.md). -/
structure StatusUnit where
  safety        : Safety
  unmarked      : Bool
  causes        : Byte
  fenceLoss     : Bool
  fenceUnknown  : Bool
  lastTag       : Byte
  deferred      : BitVec 16
  merged        : BitVec 16
  rejected      : Byte
  discarded     : Byte
  episodes      : Byte
  dropped       : Byte
  snapshot      : Shadow
  snapshotValid : Bool
  deriving DecidableEq, Repr

/-- The writer states (R142). -/
inductive WriterState
  | idle
  | writing (index : Offset)
  deriving DecidableEq, Repr

/-- The record of the most recent started status write (R142). -/
inductive WriteRecord
  | empty
  | started
  | completed (safety : Safety)
  | faulted
  | abandoned
  deriving DecidableEq, Repr

/-- The status writer (R142). -/
structure StatusWriter where
  state     : WriterState
  abandoned : Bool
  pending   : Bool
  image     : Shadow
  record    : WriteRecord
  deriving DecidableEq, Repr

/-! ## Descriptor unit (chapter 9) and region table (chapter 2) -/

/-- The policies of section 2.1. -/
inductive Policy
  | defer | block | discard | readonly
  deriving DecidableEq, Repr

/-- One region row (R29, Table 9-3). -/
structure Row where
  valid  : Bool
  policy : Policy
  merge  : Bool
  base   : Line
  limit  : Line
  deriving DecidableEq, Repr

/-- A configuration (R152, R153), without its generation. -/
structure Configuration where
  defaultPolicy  : Policy
  defaultMerge   : Bool
  warningCode    : BitVec 3
  rampSelect     : Bool
  warnFilter     : Nat
  recoveryFilter : Nat
  stallLimit     : Byte
  causeMask      : Byte
  rows           : List Row
  deriving DecidableEq, Repr

/-- The descriptor unit (R154). The reload state is READING when `reading` is true; the index of the
next byte to read is the number of bytes read. -/
structure DescriptorUnit where
  applied    : Option Configuration
  generation : Byte
  reading    : Bool
  bytes      : List Byte
  held       : Option Byte
  deriving DecidableEq, Repr

/-! ## Start-up sequencer (chapter 10) -/

/-- The steps of Table 10-1. -/
inductive StartStep
  | statusRead | descriptorLoad | startWrite | ended
  deriving DecidableEq, Repr

/-- The start-up sequencer (R161); the index of the next status-line byte to read is the number of
bytes gathered. -/
structure Sequencer where
  step  : StartStep
  bytes : List Byte
  deriving DecidableEq, Repr

/-! ## The whole part -/

/-- The state of the part. `pending` is the queue of waiting commands. `queueEmptyReports` counts the
queue-empty reports sent and not yet taken (R94, notes/assumptions/17.md). `now` is the model's
clock in microseconds (notes/assumptions/3.md), `freeIndex` the model's count of free values
taken (notes/assumptions/5.md). -/
structure State where
  pending           : List Instr
  porAsserted       : Bool
  pins              : Pins
  host              : HostPort
  queue             : List Entry
  control           : ModeController
  queueEmptyReports : Nat
  monitor           : SupplyMonitor
  engine            : DrainEngine
  port              : MemoryPort
  status            : StatusUnit
  writer            : StatusWriter
  descriptor        : DescriptorUnit
  sequencer         : Sequencer
  memory            : Memory
  now               : Nat
  freeIndex         : Nat
  deriving DecidableEq, Repr

/-- Why the machine stops. The part never stops: what it calls a fault is a completion with effects
on the state (R111), so no meaning raises this; it names the case for the host's interface. -/
inductive Fault
  /-- Raised by no meaning. Safe: the machine stops. -/
  | stopped
  deriving DecidableEq, Repr

/-- Why a command has no meaning. -/
inductive Refusal
  /-- A command of the opcode table whose meaning is not written: raised by `exec`'s refused arms
  alone, of which there are none. Safe: nothing is claimed of it. -/
  | notModelled (mnemonic : String)
  deriving DecidableEq, Repr

/-- The shadow after power-on reset (Table 8-1). -/
def Shadow.reset : Shadow where
  mode := .startup
  safety := .clean
  reason := .auto
  unmarked := false
  warned := false
  causes := 0#8
  fenceLoss := false
  fenceUnknown := false
  openLoss := false
  supplyClass := .good
  occupancy := 0
  fences := 0
  lastTag := 0#8
  deferred := 0#16
  merged := 0#16
  rejected := 0#8
  discarded := 0#8
  episodes := 0#8
  dropped := 0#8
  generation := 0#8

/-- The part with power-on reset asserted: every block at its power-on reset value (R27, R46, R69,
R84, R116, R131, R132, R142, R154, R161), input pins at rest and a blank memory. The values the
manual does not give are notes/assumptions/1.md, 2.md, 3.md and 19.md. -/
def State.reset : State where
  pending := []
  porAsserted := true
  pins := ⟨false, true, true, true, true, 0#20, 0#8, true, 0⟩
  host := ⟨none, none, true, false⟩
  queue := []
  control := ⟨.startup, .auto, false, none⟩
  queueEmptyReports := 0
  monitor := ⟨.good, 0, 0, none⟩
  engine := ⟨.stopped, 7, none, none, none, 0, .nothing, .good, false, none⟩
  port := ⟨none, ⟨none, none, none, none⟩, .host, none⟩
  status := ⟨.clean, false, 0#8, false, false, 0#8, 0#16, 0#16, 0#8, 0#8, 0#8, 0#8,
    Shadow.reset, false⟩
  writer := ⟨.idle, false, false, Shadow.reset, .empty⟩
  descriptor := ⟨none, 0#8, false, [], none⟩
  sequencer := ⟨.statusRead, []⟩
  memory := ⟨[], []⟩
  now := 0
  freeIndex := 0

end Sys2Proof.Machine
end

