-- ==== Sys2Proof/Machine/Ops.lean ====
section
/-! DEFINITION. The plain operations over the state: byte lists in rising order, the memory, the
clock, free values and the input pins. -/

namespace Sys2Proof.Machine

open Sys2Proof

/-! ## Byte lists in rising key order: the listed memory and the present set of a DATA entry -/

/-- The byte listed at a key. -/
def cellGet : List Host.Cell → Nat → Option Byte
  | [], _ => none
  | c :: cs, k => if c.1 = k then some c.2 else cellGet cs k

/-- List a byte at a key, replacing the one there, and keep the order. -/
def cellSet : List Host.Cell → Nat → Byte → List Host.Cell
  | [], k, v => [(k, v)]
  | c :: cs, k, v =>
    if k < c.1 then (k, v) :: c :: cs
    else if k = c.1 then (k, v) :: cs
    else c :: cellSet cs k v

/-- Take a key off the list. -/
def cellDrop : List Host.Cell → Nat → List Host.Cell
  | [], _ => []
  | c :: cs, k => if c.1 = k then cellDrop cs k else c :: cellDrop cs k

/-- Add a key to a rising list of keys. -/
def keyAdd : List Nat → Nat → List Nat
  | [], k => [k]
  | a :: as, k => if k < a then k :: a :: as else if k = a then a :: as else a :: keyAdd as k

/-- Take a key off a list of keys. -/
def keyDrop : List Nat → Nat → List Nat
  | [], _ => []
  | a :: as, k => if a = k then keyDrop as k else a :: keyDrop as k

/-! ## The memory (R114) -/

/-- How many byte addresses there are (0.5). -/
def addressCount : Nat := 2 ^ 20

/-- What an unlisted address reads as: memory never written holds FFH. The manual leaves a blank
memory's contents open and names FFH as one case (R163). DESIGN CHOICE, unsafe,
notes/assumptions/1.md. -/
def blankByte : Byte := 0xFF#8

/-- The byte the memory holds at an address, `none` where it is unknown (R111, R114, R116). -/
def memRead (m : Memory) (a : Addr) : Option Byte :=
  if a.toNat ∈ m.unknown then none else some ((cellGet m.cells a.toNat).getD blankByte)

/-- A done write: the memory holds the byte written (R114). -/
def memWrite (m : Memory) (a : Addr) (b : Byte) : Memory where
  cells := if b = blankByte then cellDrop m.cells a.toNat else cellSet m.cells a.toNat b
  unknown := keyDrop m.unknown a.toNat

/-- From the write strobe until a done completion the byte is unknown (R111, R114, R116). -/
def memForget (m : Memory) (a : Addr) : Memory where
  cells := cellDrop m.cells a.toNat
  unknown := keyAdd m.unknown a.toNat

/-- Two addresses with none between them: the neighbouring byte of R111 (notes/assumptions/9.md). -/
abbrev neighbours (a a' : Addr) : Prop := a'.toNat + 1 = a.toNat ∨ a'.toNat = a.toNat + 1

/-- The memory with the bytes on either side of an address made unknown, where the address space has one
(R111). -/
def memDisturb (m : Memory) (a : Addr) (below above : Bool) : Memory :=
  let m1 := if below && a != 0x00000#20 then memForget m (a - 1#20) else m
  if above && a != 0xFFFFF#20 then memForget m1 (a + 1#20) else m1

/-- The canonical form: addresses strictly rising and in range, no listed byte equal to what an
unlisted address reads as, and no unknown address listed. -/
abbrev Memory.wf (m : Memory) : Prop :=
  (m.cells.map Prod.fst).Pairwise (· < ·) ∧
    (∀ c ∈ m.cells, c.2 ≠ blankByte ∧ c.1 < addressCount) ∧
    m.unknown.Pairwise (· < ·) ∧
    (∀ a ∈ m.unknown, a < addressCount ∧ a ∉ m.cells.map Prod.fst)

/-! ## Clock and free values -/

/-- A timer's expiry is taken: the clock has reached the instant it is due
(notes/assumptions/3.md). -/
def State.reach (s : State) (due : Nat) : State := { s with now := max s.now due }

/-- Count one free value taken (notes/assumptions/5.md). -/
def State.takeFree (s : State) : State := { s with freeIndex := s.freeIndex + 1 }

/-- A write that faulted after its strobe was issued, or was cut off in its busy watch, may have disturbed a
neighbouring byte: a free value for each neighbour, which is unknown where it was (R111, R116;
notes/assumptions/9.md). -/
def disturbNeighbours (a : Addr) (s : State) : State :=
  { s.takeFree with
    memory := memDisturb s.memory a (Config.disturbsBelow s.freeIndex)
      (Config.disturbsAbove s.freeIndex) }

/-- The byte on MD7–MD0 at the end of a read strobe (R109). It is the memory's byte, unless the
memory was busy at the 2 ms bound or the byte is unknown: then it is a free value
(notes/assumptions/5.md). -/
def driveByte (a : Addr) (busy : Bool) (s : State) : Byte × State :=
  match busy, memRead s.memory a with
  | false, some b => (b, s)
  | _, _ => (Config.freeByte s.freeIndex, s.takeFree)

/-! ## Input pins -/

/-- The host bus as R118 reads it: an access can begin when HCS# is low and exactly one of HOE# and
HWE# is low. -/
def busOp (p : Pins) : Option BusOp :=
  match p.hcs, p.hoe, p.hwe with
  | false, false, true => some (.read p.ha)
  | false, true, false => some (.write p.ha p.hd)
  | _, _, _ => none

/-- The host selects the part and lowers HOE# with an address. -/
def Pins.lowerRead (p : Pins) (a : Addr) : Pins := { p with hcs := false, hoe := false, ha := a }

/-- The host selects the part and lowers HWE# with an address and a byte. -/
def Pins.lowerWrite (p : Pins) (a : Addr) (b : Byte) : Pins :=
  { p with hcs := false, hwe := false, ha := a, hd := b }

/-- The host returns a line high. A deselected part does not look at its strobes, and the host lowers
one anew for each access, so HCS# high leaves both high (DESIGN CHOICE, safe,
notes/assumptions/10.md). -/
def Pins.raise (p : Pins) : HostLine → Pins
  | .hcs => { p with hcs := true, hoe := true, hwe := true }
  | .hoe => { p with hoe := true }
  | .hwe => { p with hwe := true }

/-- Whether returning this line high ends an access of this kind (R119: "HCS#, or the access's
strobe"). -/
def endsAccess : HostLine → BusOp → Bool
  | .hcs, _ => true
  | .hoe, .read _ => true
  | .hwe, .write _ _ => true
  | _, _ => false

end Sys2Proof.Machine
end

