-- ==== Sys2Proof/Machine/Operands.lean ====
section
/-! DEFINITION. Operands: addresses and the control window (0.5, Table 9-1), the region lookup
(2.1), the descriptor and status-line layouts (9.2), supply classes (Table 4-1) and the fixed
durations. -/

namespace Sys2Proof.Machine

open Sys2Proof

/-! ## Addresses -/

/-- The line of an address (0.5). -/
def lineOf (a : Addr) : Line := a.extractLsb' 4 16

/-- The offset of an address in its line (0.5). -/
def offsetOf (a : Addr) : Nat := (a.extractLsb' 0 4).toNat

/-- The address of an offset of a line (R83). -/
def addrOf (line : Line) (offset : Nat) : Addr := line ++ BitVec.ofNat 4 offset

/-- The status line (R33). -/
def statusLine : Line := 0xFFF0#16

/-- FFF10H (R126). -/
def ackAddr : Addr := 0xFFF10#20

/-- FFF11H (R3). -/
def fenceAddr : Addr := 0xFFF11#20

/-- FFF22H (R155). -/
def generationAddr : Addr := 0xFFF22#20

/-- FFF20H, the first of the 49 descriptor bytes (R157). -/
def descriptorBase : Addr := 0xFFF20#20

/-- The number of descriptor bytes (R151). -/
def descriptorLength : Nat := 49

/-- FFF00H, the first of the 16 status-line bytes (R162). -/
def statusBase : Addr := 0xFFF00#20

/-- The number of status-line bytes (R162). -/
def statusLength : Nat := 16

/-- The address of status byte `n` (R144). -/
def statusAddr (n : Offset) : Addr := statusLine ++ n

/-- Whether an address is in the status line (R32, test 3). -/
def inStatusLine (a : Addr) : Bool := lineOf a == statusLine

/-- Whether an address is in the control window, lines FFF0H to FFFFH (R31). -/
def inWindow (a : Addr) : Bool := statusLine ≤ lineOf a

/-- The address a request names. -/
def BusOp.addr : BusOp → Addr
  | .read a => a
  | .write a _ => a

/-- Whether a request is a read. -/
def BusOp.isRead : BusOp → Bool
  | .read _ => true
  | .write _ _ => false

/-! ## Region lookup (R30) -/

/-- Whether a valid row's range contains a line, both bounds inclusive (R30). -/
def Row.contains (r : Row) (line : Line) : Bool := r.valid && r.base ≤ line && line ≤ r.limit

/-- The policy and merge flag of a line outside the window: the lowest-numbered valid row that
contains it, else the default (R30). -/
def Configuration.lookup (c : Configuration) (line : Line) : Policy × Bool :=
  match c.rows.find? (fun r => r.contains line) with
  | some r => (r.policy, r.merge)
  | none => (c.defaultPolicy, c.defaultMerge)

/-! ## The descriptor (R151, R152, Tables 9-2 and 9-3) -/

/-- The policy encoding of Tables 9-2 and 9-3. -/
def policyOf (b : BitVec 2) : Policy :=
  if b = 0#2 then .defer else if b = 1#2 then .block else if b = 2#2 then .discard else .readonly

/-- Byte `n` of a list of bytes, 00H past its end. -/
def byteAt (bs : List Byte) (n : Nat) : Byte := bs.getD n 0#8

/-- The 8-bit sum of a list of bytes (R151, R162). -/
def byteSum (bs : List Byte) : Byte := bs.foldl (· + ·) 0#8

/-- The window offset of row `n` from the descriptor's start: FFF28H + 5n (Table 9-3). -/
def rowBase (n : Nat) : Nat := 8 + 5 * n

/-- Row `n` of a descriptor (Table 9-3). -/
def descriptorRow (bs : List Byte) (n : Nat) : Row where
  valid := (byteAt bs (rowBase n)).getLsbD 7
  policy := policyOf ((byteAt bs (rowBase n)).extractLsb' 0 2)
  merge := (byteAt bs (rowBase n)).getLsbD 2
  base := byteAt bs (rowBase n + 1) ++ byteAt bs (rowBase n + 2)
  limit := byteAt bs (rowBase n + 3) ++ byteAt bs (rowBase n + 4)

/-- The eight rows, in the order in which they stand in the descriptor (R29). -/
def descriptorRows (bs : List Byte) : List Row :=
  [0, 1, 2, 3, 4, 5, 6, 7].map (descriptorRow bs)

/-- Condition 4 of R151: every bit marked 0 is 0. -/
def reservedBitsClear (bs : List Byte) : Bool :=
  (byteAt bs 3).extractLsb' 3 5 == 0#5 && (byteAt bs 4).extractLsb' 4 4 == 0#4 &&
    (byteAt bs 5).extractLsb' 2 2 == 0#2 &&
    [0, 1, 2, 3, 4, 5, 6, 7].all fun n => (byteAt bs (rowBase n)).extractLsb' 3 4 == 0#4

/-- The five conditions of R151. -/
def descriptorValid (bs : List Byte) : Bool :=
  (byteAt bs 0 == 0x6C#8 && byteAt bs 1 == 0x3A#8) &&
    byteSum bs == 0#8 &&
    (byteAt bs 5).extractLsb' 4 4 != 0#4 &&
    reservedBitsClear bs &&
    (descriptorRows bs).all fun r => !r.valid || r.base ≤ r.limit

/-- The configuration a valid descriptor holds (R152). -/
def descriptorConfig (bs : List Byte) : Configuration where
  defaultPolicy := policyOf ((byteAt bs 3).extractLsb' 0 2)
  defaultMerge := (byteAt bs 3).getLsbD 2
  warningCode := (byteAt bs 4).extractLsb' 0 3
  rampSelect := (byteAt bs 4).getLsbD 3
  warnFilter := ((byteAt bs 5).extractLsb' 0 2).toNat + 1
  recoveryFilter := ((byteAt bs 5).extractLsb' 4 4).toNat
  stallLimit := byteAt bs 6
  causeMask := byteAt bs 7
  rows := descriptorRows bs

/-- The generation a descriptor holds, FFF22H (R152). -/
def descriptorGeneration (bs : List Byte) : Byte := byteAt bs 2

/-- A row that takes no part in lookups. -/
def Row.invalid : Row := ⟨false, .defer, false, 0#16, 0#16⟩

/-- The default configuration (R153). -/
def Configuration.default : Configuration where
  defaultPolicy := .defer
  defaultMerge := false
  warningCode := 4#3
  rampSelect := false
  warnFilter := 2
  recoveryFilter := 4
  stallLimit := 64#8
  causeMask := 0xFF#8
  rows := List.replicate 8 Row.invalid

/-- The configuration that a reader takes. Before the first apply there is none, and no rule reads
one then (R29, R72); the default stands in its place. -/
def State.config (s : State) : Configuration := s.descriptor.applied.getD Configuration.default

/-! ## The status line as read at start-up (R162, Table 9-4) -/

/-- The line passes its check: the 8-bit sum of its bytes is 00H (R162). -/
def statusLineValid (bs : List Byte) : Bool := byteSum bs == 0#8

/-- The safety encoding of Table 9-4. -/
def safetyOf (b : BitVec 2) : Safety :=
  if b = 0#2 then .clean else if b = 1#2 then .atRisk else if b = 2#2 then .held else .draining

/-- The safety state a line carries, byte 0 bits 4–3. -/
def lineSafety (bs : List Byte) : Safety := safetyOf ((byteAt bs 0).extractLsb' 3 2)

/-- FENCE_LOSS of a line, byte 2 bit 0. -/
def lineFenceLoss (bs : List Byte) : Bool := (byteAt bs 2).getLsbD 0

/-- OPEN_LOSS of a line, byte 2 bit 2. -/
def lineOpenLoss (bs : List Byte) : Bool := (byteAt bs 2).getLsbD 2

/-- The last completed fence tag of a line, byte 5. -/
def lineTag (bs : List Byte) : Byte := byteAt bs 5

/-! ## Supply classes (R70, Table 4-1), voltages in millivolts -/

/-- The hold level, 2.70 V. -/
def holdLevel : Nat := 2700

/-- The warning level of a warning code: 2.80 V and 0.05 V more for each step (Table 4-1). -/
def warningLevel (code : BitVec 3) : Nat := 2800 + 50 * code.toNat

/-- The class of a sample (R70). -/
def classOf (code : BitVec 3) (vsen : Nat) : SupplyClass :=
  if vsen < holdLevel then .low else if vsen < warningLevel code then .marginal else .good

/-! ## Durations, in microseconds -/

/-- The sample period: 1 ms in HOLD and 125 µs in every other mode (R71, Table 4-2). -/
def samplePeriod : Mode → Nat
  | .hold => 1000
  | _ => 125

/-- The ramp step period: 0.5 ms when the ramp select is 0 and 2 ms when it is 1 (R91). -/
def rampPeriod (rampSelect : Bool) : Nat := if rampSelect then 2000 else 500

/-- The gap of a ramp level: 8 µs for each level (R90). -/
def gapLength (level : Nat) : Nat := 8 * level

/-- The retry pause, 1 ms (R95). -/
def retryPause : Nat := 1000

/-- The write timeout, 2 ms from the grant (R111). -/
def writeTimeoutLength : Nat := 2000

/-- The stall limit's unit, 64 µs (R40). -/
def stallUnit : Nat := 64

end Sys2Proof.Machine
end

