-- ==== Sys2Proof/Machine/Flags.lean ====
section
/-! DEFINITION. Causes, counts, the status shadow and its 16 bytes, ALERT, the snapshot and the fence
bookkeeping (chapter 8). -/

namespace Sys2Proof.Machine

open Sys2Proof

/-! ## Causes (R134 to R137, Table 8-3) -/

/-- The eight causes, in the bit order of status byte 1 (Table 9-4). -/
inductive Cause
  | holdEntered | drainDone | warn | writeRejected | queueFull | memFault | lossSuspected
  | configRejected
  deriving DecidableEq, Repr

/-- The bit of a cause (Table 9-4). -/
def Cause.bit : Cause → Byte
  | .holdEntered => 0x01#8
  | .drainDone => 0x02#8
  | .warn => 0x04#8
  | .writeRejected => 0x08#8
  | .queueFull => 0x10#8
  | .memFault => 0x20#8
  | .lossSuspected => 0x40#8
  | .configRejected => 0x80#8

/-- An edge cause's notice: it becomes, or stays, pending (R134). -/
def setCause (c : Cause) (s : State) : State :=
  { s with status := { s.status with causes := s.status.causes ||| c.bit } }

/-- An ack: every edge cause whose bit is 1 stops being pending (R136). WARN is not held here, so it
is left as it is (R135). -/
def takeAck (b : Byte) (s : State) : State :=
  { s with status := { s.status with causes := s.status.causes &&& ~~~b } }

/-- The causes field: the edge causes, and WARN pending exactly while the monitor state is WARNED
(R134, R135). -/
def State.causes (s : State) : Byte :=
  (s.status.causes &&& ~~~Cause.warn.bit) |||
    (if s.monitor.state = .warned then Cause.warn.bit else 0#8)

/-- ALERT: asserted exactly when a pending cause has its bit set in the applied mask; deasserted while
there is no applied configuration (R137). -/
def State.alert (s : State) : Bool :=
  match s.descriptor.applied with
  | none => false
  | some c => s.causes &&& c.causeMask != 0#8

/-! ## Counts (R133, Table 8-2) -/

/-- One step of a saturating count. -/
def saturate (n : Byte) : Byte := if n = 0xFF#8 then n else n + 1#8

/-- The deferred notice (R44). -/
def countDeferred (s : State) : State :=
  { s with status := { s.status with deferred := s.status.deferred + 1#16 } }

/-- The merged notice (R44). -/
def countMerged (s : State) : State :=
  { s with status := { s.status with merged := s.status.merged + 1#16 } }

/-- The discarded notice (R44). -/
def countDiscarded (s : State) : State :=
  { s with status := { s.status with discarded := saturate s.status.discarded } }

/-- The rejected notice together with the WRITE_REJECTED notice: both are sent at each ERR answer to
a host write (R44, R45). -/
def countRejected (s : State) : State :=
  setCause .writeRejected
    { s with status := { s.status with rejected := saturate s.status.rejected } }

/-- The dropped notice (R96, R97). -/
def countDropped (s : State) : State :=
  { s with status := { s.status with dropped := saturate s.status.dropped } }

/-- The HOLD_ENTERED and hold-episode notices (R50). -/
def countEpisode (s : State) : State :=
  setCause .holdEntered
    { s with status := { s.status with episodes := s.status.episodes + 1#8 } }

/-! ## The shadow and its bytes (R132, Table 9-4) -/

/-- The number of FENCE entries held (R26). -/
def fenceCount (q : List Entry) : Nat :=
  (q.filter fun e => match e.body with | .fence _ => true | .data _ _ => false).length

/-- The status shadow as it stands: each field from the block that owns it (R132, Table 8-1). -/
def State.shadow (s : State) : Shadow where
  mode := s.control.mode
  safety := s.status.safety
  reason := s.control.reason
  unmarked := s.status.unmarked
  warned := decide (s.monitor.state = .warned)
  causes := s.causes
  fenceLoss := s.status.fenceLoss
  fenceUnknown := s.status.fenceUnknown
  openLoss := s.engine.openLoss
  supplyClass := s.engine.lastClass
  occupancy := s.queue.length
  fences := fenceCount s.queue
  lastTag := s.status.lastTag
  deferred := s.status.deferred
  merged := s.status.merged
  rejected := s.status.rejected
  discarded := s.status.discarded
  episodes := s.status.episodes
  dropped := s.status.dropped
  generation := s.descriptor.generation

/-- The mode encoding, byte 0 bits 2–0. -/
def Mode.code : Mode → BitVec 3
  | .startup => 0#3
  | .normal => 1#3
  | .entering => 2#3
  | .hold => 3#3
  | .drain => 4#3
  | .closing => 5#3

/-- The safety state encoding, byte 0 bits 4–3. -/
def Safety.code : Safety → BitVec 2
  | .clean => 0#2
  | .atRisk => 1#2
  | .held => 2#2
  | .draining => 3#2

/-- The supply class encoding, byte 2 bits 4–3. -/
def SupplyClass.code : SupplyClass → BitVec 2
  | .low => 0#2
  | .marginal => 1#2
  | .good => 2#2

/-- Status byte 0: WARNED, UNMARKED, hold reason, safety state, mode. -/
def Shadow.byte0 (h : Shadow) : Byte :=
  BitVec.ofBool h.warned ++ BitVec.ofBool h.unmarked ++
    BitVec.ofBool (decide (h.reason = .forced)) ++ h.safety.code ++ h.mode.code

/-- Status byte 2: supply class, OPEN_LOSS, FENCE_UNKNOWN, FENCE_LOSS. -/
def Shadow.byte2 (h : Shadow) : Byte :=
  0#3 ++ h.supplyClass.code ++ BitVec.ofBool h.openLoss ++ BitVec.ofBool h.fenceUnknown ++
    BitVec.ofBool h.fenceLoss

/-- Bytes 0 to 14 of a copy of the shadow (Table 9-4). -/
def Shadow.fieldBytes (h : Shadow) : List Byte :=
  [h.byte0, h.causes, h.byte2, BitVec.ofNat 8 h.occupancy, BitVec.ofNat 8 h.fences, h.lastTag,
    h.deferred.extractLsb' 0 8, h.deferred.extractLsb' 8 8,
    h.merged.extractLsb' 0 8, h.merged.extractLsb' 8 8,
    h.rejected, h.discarded, h.episodes, h.dropped, h.generation]

/-- The 16 bytes of a copy: the check byte makes their 8-bit sum 00H (R132). -/
def Shadow.bytes (h : Shadow) : List Byte := h.fieldBytes ++ [-byteSum h.fieldBytes]

/-- Byte `n` of a copy of the shadow. -/
def Shadow.byte (h : Shadow) (n : Offset) : Byte := byteAt h.bytes n.toNat

/-! ## The snapshot latch (R138, R139) -/

/-- Latch a new snapshot of the shadow. -/
def takeSnapshot (s : State) : State :=
  { s with status := { s.status with snapshot := s.shadow, snapshotValid := true } }

/-- A host read of the status line: byte 0 takes a new snapshot (R138), bytes 1 to 15 take one first
only if it is not valid (R139). The answer is the byte of the snapshot. -/
def readStatus (n : Offset) (s : State) : Byte × State :=
  let s' := if n = 0#4 ∨ s.status.snapshotValid = false then takeSnapshot s else s
  (s'.status.snapshot.byte n, s')

/-! ## Fence bookkeeping (R140) -/

/-- A fence completion: the tag, FENCE_LOSS from OPEN_LOSS, OPEN_LOSS and FENCE_UNKNOWN cleared, all as
one step (R140). -/
def completeFence (tag : Byte) (s : State) : State :=
  { s with
    status := { s.status with
      lastTag := tag, fenceLoss := s.engine.openLoss, fenceUnknown := false }
    engine := { s.engine with openLoss := false } }

/-! ## UNMARKED (R148) -/

/-- The determination at an entry to HOLD, from the record (R148). -/
def recordUnmarked : WriteRecord → Bool
  | .completed .clean => true
  | .completed _ => false
  | _ => true

/-- UNMARKED is determined (R148). -/
def determineUnmarked (s : State) : State :=
  { s with status := { s.status with unmarked := recordUnmarked s.writer.record } }

end Sys2Proof.Machine
end

