-- ==== Sys2Proof/Machine/Queue.lean ====
section
/-! DEFINITION. The hold queue (chapter 1): append, merge, fence, overlay lookup, head claim, written
report, drop and release, over the list of entries, head first. -/

namespace Sys2Proof.Machine

open Sys2Proof

/-- The slots of the queue (R1). -/
def queueCapacity : Nat := 32

/-- The answers to a write or fence request (Table 1-3). -/
inductive QueueAnswer
  | merged | appended | noSlot
  deriving DecidableEq, Repr

/-! ## The overlay (R23) -/

/-- The byte an entry holds at an address, if it is a holder of it (R23, R3). -/
def Entry.held (e : Entry) (a : Addr) : Option Byte :=
  match e.body with
  | .data line bytes => if line = lineOf a then cellGet bytes (offsetOf a) else none
  | .fence tag => if a = fenceAddr then some tag else none

/-- The current holder's byte, searching youngest to oldest, or a miss (R23). -/
def overlay : List Entry → Addr → Option Byte
  | [], _ => none
  | e :: rest, a =>
    match overlay rest a with
    | some b => some b
    | none => e.held a

/-! ## Merge and append (R7 to R13) -/

/-- Whether an entry is a DATA entry of a line. -/
def Entry.isDataOf (e : Entry) (line : Line) : Bool :=
  match e.body with
  | .data l _ => l == line
  | .fence _ => false

/-- Whether an entry is a FENCE entry. -/
def Entry.isFence (e : Entry) : Bool :=
  match e.body with
  | .fence _ => true
  | .data _ _ => false

/-- The entry with a byte added or replaced (R12). -/
def Entry.put (e : Entry) (offset : Nat) (b : Byte) : Entry :=
  match e.body with
  | .data line bytes => { e with body := .data line (cellSet bytes offset b) }
  | .fence _ => e

/-- Merge a byte into the merge target (R11, R12). The target is the youngest DATA entry of the line;
it qualifies when it is PENDING and no FENCE entry is younger. `none` where there is no target or it
does not qualify. -/
def mergeInto : List Entry → Line → Nat → Byte → Option (List Entry)
  | [], _, _, _ => none
  | e :: rest, line, offset, b =>
    if rest.any (fun x => x.isDataOf line) then
      (mergeInto rest line offset b).map fun rest' => e :: rest'
    else if e.isDataOf line && e.state == .pending && !rest.any Entry.isFence then
      some (e.put offset b :: rest)
    else none

/-- Append an entry at the young end when a slot is free (R1, R8, R9). -/
def appendEntry (q : List Entry) (body : EntryBody) : QueueAnswer × List Entry :=
  if q.length < queueCapacity then (.appended, q ++ [⟨body, .pending⟩]) else (.noSlot, q)

/-- A write request: the merge target is looked for before the slot test (R7, R8, R9). -/
def writeRequest (q : List Entry) (a : Addr) (b : Byte) (merge : Bool) :
    QueueAnswer × List Entry :=
  match merge, mergeInto q (lineOf a) (offsetOf a) b with
  | true, some q' => (.merged, q')
  | _, _ => appendEntry q (.data (lineOf a) [(offsetOf a, b)])

/-- A fence request (R13). -/
def fenceRequest (q : List Entry) (tag : Byte) : QueueAnswer × List Entry :=
  appendEntry q (.fence tag)

/-! ## The head (R15 to R20) -/

/-- The write of a claimed head: the lowest present offset and its byte, or the tag (Table 1-4). -/
def Entry.claimed (e : Entry) : Option DrainWrite :=
  match e.body with
  | .data line ((offset, b) :: _) => some ⟨false, addrOf line offset, b⟩
  | .data _ [] => none
  | .fence tag => some ⟨true, fenceAddr, tag⟩

/-- A head claim: the head's write, and the queue with the head DRAINING; `none` is EMPTY (R15). A
DATA entry without an offset does not exist (R2); it would be answered EMPTY
(notes/assumptions/20.md). -/
def headClaim : List Entry → Option (DrainWrite × List Entry)
  | [] => none
  | e :: rest => e.claimed.map fun w => (w, { e with state := .draining } :: rest)

/-- A written report: the claimed offset, or the FENCE entry, leaves the head; the flag says whether an
entry was removed (R16, R17). -/
def writtenReport (q : List Entry) (offset : Nat) : Bool × List Entry :=
  match q with
  | [] => (false, [])
  | e :: rest =>
    match e.body with
    | .fence _ => (true, rest)
    | .data line bytes =>
      match cellDrop bytes offset with
      | [] => (true, rest)
      | bytes' => (false, { e with body := .data line bytes' } :: rest)

/-- A drop: the head leaves whole (R19). -/
def dropHead (q : List Entry) : List Entry := q.tail

/-- A release: a DRAINING head returns to PENDING (R20). -/
def releaseHead : List Entry → List Entry
  | [] => []
  | e :: rest => { e with state := .pending } :: rest

end Sys2Proof.Machine
end

