-- ==== Sys2Proof/Machine/Port.lean ====
section
/-! DEFINITION. The memory port (chapter 6): requests, withdrawals, the mode gate, grants and the
phases of an access. -/

namespace Sys2Proof.Machine

open Sys2Proof

/-! ## Waiting requests -/

/-- The waiting request of a requester. -/
def Waiting.get (w : Waiting) : Requester → Option BusOp
  | .status => w.status
  | .load => w.load
  | .host => w.host
  | .drain => w.drain

/-- The waiting requests with one requester's replaced. -/
def Waiting.put (w : Waiting) : Requester → Option BusOp → Waiting
  | .status, o => { w with status := o }
  | .load, o => { w with load := o }
  | .host, o => { w with host := o }
  | .drain, o => { w with drain := o }

/-- The requesters in the order in which requests of one step arrive. -/
def Requester.all : List Requester := [.status, .load, .host, .drain]

/-! ## The mode gate (R108, Table 6-5) -/

/-- Whether the gate lets a request through: a read always; a write not in HOLD, and in ENTERING only
the status writer's (R108). -/
def gateOpen (m : Mode) (r : Requester) (op : BusOp) : Bool :=
  op.isRead ||
    match m with
    | .hold => false
    | .entering => r == .status
    | _ => true

/-- The waiting request of a requester, if the gate lets it through. -/
def eligible (m : Mode) (w : Waiting) (r : Requester) : Option BusOp :=
  (w.get r).filter (gateOpen m r)

/-! ## The grant decision (R106, R107, Table 6-3) -/

/-- The requester and request that a decision grants: STATUS, then LOAD, then of HOST and DRAIN the one
the marker does not name, if both wait (R107). -/
def grantChoice (m : Mode) (w : Waiting) (marker : Marker) : Option (Requester × BusOp) :=
  match eligible m w .status, eligible m w .load, eligible m w .host, eligible m w .drain with
  | some o, _, _, _ => some (.status, o)
  | none, some o, _, _ => some (.load, o)
  | none, none, some h, some d =>
    match marker with
    | .host => some (.drain, d)
    | .drain => some (.host, h)
  | none, none, some h, none => some (.host, h)
  | none, none, none, some d => some (.drain, d)
  | none, none, none, none => none

/-- The marker after a grant (R106). -/
def markerAfter (marker : Marker) : Requester → Marker
  | .host => .host
  | .drain => .drain
  | _ => marker

/-- The ready wait ends with MRDY high: on to the strobe (R109, R110). From a write strobe on, the
memory's byte is unknown until the done completion (R114). -/
def enterStrobe (acc : PortAccess) (busy : Bool) (s : State) : State :=
  match acc.op with
  | .read _ => { s with port := { s.port with access := some { acc with phase := .readStrobe busy } } }
  | .write a _ =>
    { s with
      port := { s.port with access := some { acc with phase := .writeStrobe false } }
      memory := memForget s.memory a }

/-- A grant: the request leaves the waiting requests, the timer starts at 2 ms, the marker moves, and
the ready wait ends at once if MRDY is high (R106, R109, R110). -/
def grant (r : Requester) (op : BusOp) (s : State) : State :=
  let acc : PortAccess := ⟨r, op, .readyWait⟩
  let s' := { s with port := {
    access := some acc
    waiting := s.port.waiting.put r none
    marker := markerAfter s.port.marker r
    timeout := some (s.now + writeTimeoutLength) } }
  if s.pins.mrdy then enterStrobe acc false s' else s'

/-- A grant decision, taken while the port is IDLE (R106). -/
def decideGrant (s : State) : State :=
  match s.port.access, grantChoice s.control.mode s.port.waiting s.port.marker with
  | none, some (r, op) => grant r op s
  | _, _ => s

/-- A request: it waits, and is granted at its arrival if the port is IDLE and the gate lets it through
(R104). -/
def portRequest (r : Requester) (op : BusOp) (s : State) : State :=
  decideGrant { s with port := { s.port with waiting := s.port.waiting.put r (some op) } }

/-- A withdrawal of a waiting request (R105). -/
def portWithdraw (r : Requester) (s : State) : State :=
  { s with port := { s.port with waiting := s.port.waiting.put r none } }

/-! ## The decision at the end of an access (R106) -/

/-- The requesters, other than the one whose access ends, that made a request during the delivery of its
completion. -/
def newRequests (own : Requester) (before after : Waiting) : List Requester :=
  Requester.all.filter fun r =>
    r != own && (before.get r).isNone && (after.get r).isSome

/-- The requests among these that arrive after the decision, by free values
(notes/assumptions/7.md). -/
def lateRequests : List Requester → Nat → List Requester
  | [], _ => []
  | r :: rs, n =>
    if Config.requestIsLate n then r :: lateRequests rs (n + 1) else lateRequests rs (n + 1)

/-- How many waiting requests the gate lets through. -/
def eligibleCount (m : Mode) (w : Waiting) : Nat :=
  (Requester.all.filter fun r => (eligible m w r).isSome).length

/-- Put requests aside. -/
def hideRequests (w : Waiting) : List Requester → Waiting
  | [] => w
  | r :: rs => hideRequests (w.put r none) rs

/-- Requests put aside arrive one after another. -/
def arriveLate (w : Waiting) : List Requester → State → State
  | [], s => s
  | r :: rs, s =>
    match w.get r with
    | some op => arriveLate w rs (portRequest r op s)
    | none => arriveLate w rs s

/-- The grant decision at the end of an access, the port IDLE (R106). The requests that waited and the
completing requester's own are counted; a request that another block made as a result of the
completion is counted or arrives just after, by a free value, where that can change the grant
(notes/assumptions/7.md). `before` is what waited when the access ended. -/
def decideAtEnd (own : Requester) (before : Waiting) (s : State) : State :=
  let fresh := newRequests own before s.port.waiting
  if fresh = [] ∨ eligibleCount s.control.mode s.port.waiting ≤ 1 then decideGrant s
  else
    let w := s.port.waiting
    let late := lateRequests fresh s.freeIndex
    let counted := { s with
      port := { s.port with waiting := hideRequests w late }
      freeIndex := s.freeIndex + fresh.length }
    arriveLate w late (decideGrant counted)

end Sys2Proof.Machine
end

