-- ==== Sys2Proof/Machine/Writer.lean ====
section
/-! DEFINITION. The status writer (8.5): requests, the beginning of a status write and its
abandonment. The ends of status writes, which reach other blocks, are in Completion.lean. -/

namespace Sys2Proof.Machine

open Sys2Proof

/-- The STATUS write of one byte of the image (R143, R144). -/
def statusByteWrite (image : Shadow) (n : Offset) : BusOp :=
  .write (statusAddr n) (image.byte n)

/-- The report that a status write has begun: it is the mode controller's awaited write if the marker
is set and its write has not begun (R49), and the drain engine's likewise (R89). -/
def reportBegun (s : State) : State :=
  { s with
    control := { s.control with
      awaited := s.control.awaited.map fun a => { a with begun := true } }
    engine := { s.engine with
      awaited := if s.engine.awaited = .requested then .begun else s.engine.awaited } }

/-- A status write begins: the image is taken, the record becomes STARTED, byte 0 is requested and the
beginning is reported (R143). -/
def beginStatusWrite (s : State) : State :=
  let image := s.shadow
  portRequest .status (statusByteWrite image 0#4)
    (reportBegun { s with writer := { s.writer with
      state := .writing 0#4, image := image, record := .started } })

/-- A request for a status write, by mode and writer state (R143). -/
def requestStatusWrite (s : State) : State :=
  match s.control.mode, s.writer.state with
  | .hold, _ => s
  | _, .idle => beginStatusWrite s
  | _, .writing _ => { s with writer := { s.writer with pending := true } }

/-- Abandonment at an entry to HOLD (R145): the pending flag is cleared in every writer state; a write
in flight ends at once if its byte request still waits, and otherwise at that byte's completion. -/
def abandonStatusWrite (s : State) : State :=
  match s.writer.state with
  | .idle => { s with writer := { s.writer with pending := false } }
  | .writing _ =>
    if (s.port.waiting.get .status).isSome then
      portWithdraw .status
        { s with writer := { s.writer with
          state := .idle, abandoned := false, pending := false, record := .abandoned } }
    else
      { s with writer := { s.writer with
        abandoned := true, pending := false, record := .abandoned } }

end Sys2Proof.Machine
end

