-- ==== Sys2Proof/Machine/Engine.lean ====
section
/-! DEFINITION. The drain engine (chapter 5): head claims, the end of a WAIT, start, stop, ramp and
release. Its completions, which reach other blocks, are in Completion.lean. -/

namespace Sys2Proof.Machine

open Sys2Proof

/-- A head claim and what the engine does with the answer: EMPTY_WAIT, or a DRAIN request and WRITING
(R86, R93). -/
def claimHead (s : State) : State :=
  match headClaim s.queue with
  | none => { s with engine := { s.engine with state := .emptyWait, outstanding := none } }
  | some (w, q) =>
    portRequest .drain (.write w.addr w.byte)
      { s with
        queue := q
        engine := { s.engine with state := .writing, outstanding := some w } }

/-- In WAIT the next claim is made once no gap runs and no status write is awaited (R89). -/
def endWait (s : State) : State :=
  if s.engine.state = .wait ∧ s.engine.gapTimer = none ∧ s.engine.awaited = .nothing then
    claimHead s
  else s

/-- In EMPTY_WAIT a rise of the occupancy above 0 makes a claim at once (R93). -/
def wakeEngine (s : State) : State :=
  if s.engine.state = .emptyWait ∧ s.queue ≠ [] then claimHead s else s

/-- The start at the end of the DRAINING write (R85). The engine is STOPPED then; in another state
nothing starts (notes/assumptions/20.md). -/
def startEngine (s : State) : State :=
  if s.engine.state = .stopped then
    claimHead { s with engine := { s.engine with
      rampTimer := some (s.now + rampPeriod s.config.rampSelect)
      attempts := 0
      awaited := .nothing } }
  else s

/-- The entry to STOPPED: no timer runs and the attempt count is 0 (Table 5-1, R100). -/
def DrainEngine.stop (e : DrainEngine) : DrainEngine :=
  { e with
    state := .stopped, rampTimer := none, gapTimer := none, retryTimer := none, attempts := 0
    awaited := .nothing, outstanding := none }

/-- The release, with the engine STOPPED once it is sent (R20, R101). -/
def releaseAndStop (s : State) : State :=
  { s with queue := releaseHead s.queue, engine := s.engine.stop }

/-- The stop when the mode leaves DRAIN, by the engine's state (R100). -/
def stopEngine (s : State) : State :=
  match s.engine.state with
  | .stopped => s
  | .stopping => s
  | .writing =>
    if (s.port.waiting.get .drain).isSome then releaseAndStop (portWithdraw .drain s)
    else { s with engine := { s.engine with state := .stopping, rampTimer := none } }
  | .emptyWait => releaseAndStop s
  | .wait => releaseAndStop s
  | .pause => releaseAndStop s

/-- Whether the engine runs: the states in which the step timer runs (R91). -/
def EngineState.running : EngineState → Bool
  | .emptyWait | .writing | .wait | .pause => true
  | .stopped | .stopping => false

/-- A class report (R83, R92): the last class is replaced; MARGINAL or LOW at a running engine sets the
level to 7 and re-arms the step timer from the sample. -/
def engineClass (c : SupplyClass) (s : State) : State :=
  let e := { s.engine with lastClass := c }
  if s.engine.state.running = true ∧ c ≠ .good then
    { s with engine := { e with
      rampLevel := 7, rampTimer := some (s.now + rampPeriod s.config.rampSelect) } }
  else { s with engine := e }

/-- An expiry of the ramp step timer: the level falls by one if it is above 0 and the last class is
GOOD, and the timer is re-armed (R91). -/
def rampExpiry (s : State) : State :=
  { s with engine := { s.engine with
    rampLevel :=
      if s.engine.rampLevel > 0 ∧ s.engine.lastClass = .good then s.engine.rampLevel - 1
      else s.engine.rampLevel
    rampTimer := some (s.now + rampPeriod s.config.rampSelect) } }

/-- The WAIT after a done completion (R87, R88, R90): the gap of the ramp level, none at level 0; with no
gap and no awaited status write the next claim is made at once. -/
def startGap (s : State) : State :=
  endWait { s with engine := { s.engine with
    state := .wait
    outstanding := none
    gapTimer :=
      if s.engine.rampLevel = 0 then none else some (s.now + gapLength s.engine.rampLevel) } }

/-- The queue-empty report, sent when a removal or drop left the queue empty (R94). -/
def reportIfEmpty (empty : Bool) (s : State) : State :=
  if empty then { s with queueEmptyReports := s.queueEmptyReports + 1 } else s

end Sys2Proof.Machine
end

