-- ==== Sys2Proof/Machine/Descriptor.lean ====
section
/-! DEFINITION. The descriptor unit (chapter 9): the reading through the overlay, the apply, the
rejection and the generation notice. -/

namespace Sys2Proof.Machine

open Sys2Proof

/-- Take every byte that the overlay answers at once, from the current index on (R157, R162). `fuel`
bounds the number of bytes. -/
def gatherHeld (q : List Entry) (base : Addr) (total : Nat) : Nat → List Byte → List Byte
  | 0, bs => bs
  | fuel + 1, bs =>
    if bs.length < total then
      match overlay q (base + BitVec.ofNat 20 bs.length) with
      | some b => gatherHeld q base total fuel (bs ++ [b])
      | none => bs
    else bs

/-- The apply of a configuration (R158, R81, R29): it replaces the applied one whole, the applied
generation is the one read, and the monitor's runs are cleared. -/
def applyConfig (c : Configuration) (generation : Byte) (s : State) : State :=
  { s with
    descriptor := { s.descriptor with applied := some c, generation := generation }
    monitor := { s.monitor with warnRun := 0, recoveryRun := 0 } }

/-- The apply of a valid descriptor, or the rejection of an invalid one (R158, R159). -/
def judgeDescriptor (s : State) : State :=
  if descriptorValid s.descriptor.bytes then
    applyConfig (descriptorConfig s.descriptor.bytes) (descriptorGeneration s.descriptor.bytes) s
  else setCause .configRejected s

/-- Whether a reading is under way whose 49 bytes are all taken. -/
def readingComplete (s : State) : Bool :=
  s.descriptor.reading && s.descriptor.bytes.length == descriptorLength

/-- The lookups of a reading from the current index: bytes that hit are taken at once, the first that
misses makes a LOAD request (R157). -/
def advanceReading (s : State) : State :=
  let bs := gatherHeld s.queue descriptorBase descriptorLength descriptorLength s.descriptor.bytes
  let s' := { s with descriptor := { s.descriptor with bytes := bs } }
  if bs.length < descriptorLength then
    portRequest .load (.read (descriptorBase + BitVec.ofNat 20 bs.length)) s'
  else s'

/-- A reading begins at index 0 (R155, R164). -/
def beginReading (s : State) : State :=
  advanceReading { s with descriptor := { s.descriptor with reading := true, bytes := [] } }

/-- The end of a reload's reading: apply or reject, then the held notice is compared with the applied
generation and starts a new reload, or the state becomes IDLE (R156, R158, R159). A new reading
whose bytes all hit ends in the same event; it has no held notice, so `fuel` 2 suffices. -/
def finishReading : Nat → State → State
  | 0, s => s
  | fuel + 1, s =>
    if readingComplete s then
      let j := judgeDescriptor s
      let idle := { j with descriptor := { j.descriptor with reading := false, held := none } }
      match s.descriptor.held with
      | some b => if b ≠ j.descriptor.generation then finishReading fuel (beginReading idle) else idle
      | none => idle
    else s

/-- A generation notice (R155, R156): in IDLE a byte that differs from the applied generation starts a
reload; while READING it is kept as the held notice. -/
def generationNotice (b : Byte) (s : State) : State :=
  if s.descriptor.reading then { s with descriptor := { s.descriptor with held := some b } }
  else if b ≠ s.descriptor.generation then finishReading 2 (beginReading s)
  else s

end Sys2Proof.Machine
end

