-- ==== Sys2Proof/Machine/HostPort.lean ====
section
/-! DEFINITION. The host port (chapters 2 and 7): routes, dispositions, stalls, answers, the beginning
of accesses and what a mode change or a freed slot does to the access in progress. -/

namespace Sys2Proof.Machine

open Sys2Proof

/-! ## Stages and answers -/

/-- The access in progress moves to a stage (R117). -/
def setStage (st : Stage) (s : State) : State :=
  { s with host := { s.host with access := s.host.access.map fun a => { a with stage := st } } }

/-- The outcome of the access is decided (R119, R120): the stage becomes ANSWERED, or a released access
becomes none without an answer. -/
def answerHost (ans : Answer) (s : State) : State :=
  match s.host.access with
  | none => s
  | some a =>
    { s with host := { s.host with
      access := if a.released then none else some { a with stage := .answered ans } } }

/-- An ERR answer to a host write with its notices (R44, R45). -/
def rejectWrite (s : State) : State := answerHost .err (countRejected s)

/-! ## Stalls (R40) -/

/-- A stall begins, or with a stall limit of 0 the write is rejected at once (R40). -/
def beginStall (k : StallKind) (s : State) : State :=
  let limit := s.config.stallLimit
  if limit = 0#8 then rejectWrite s
  else
    setStage (.stalled k)
      { s with host := { s.host with stallTimer := some (s.now + stallUnit * limit.toNat) } }

/-- The stall timer is stopped (R41, R42, R43). -/
def stopStall (s : State) : State := { s with host := { s.host with stallTimer := none } }

/-! ## Queueing a write (R7, R13, R34) -/

/-- The queue's side of a presented write: a fence request for FFF11H, a write request otherwise
(R7, R13). -/
def presentToQueue (q : List Entry) (a : Addr) (b : Byte) (merge : Bool) :
    QueueAnswer × List Entry :=
  if a = fenceAddr then fenceRequest q b else writeRequest q a b merge

/-- The answer done to a queued write, with its notices and, for the generation byte, the generation
notice (R34, R44, R127). -/
def acceptQueued (a : Addr) (b : Byte) (s : State) : State :=
  let s' := answerHost .done (countDeferred s)
  if a = generationAddr then generationNotice b s' else s'

/-- Whether an appended write brings two requests to an IDLE port together: a generation byte, whose append
wakes an engine in EMPTY_WAIT (R93) and whose notice starts a reload (R155). -/
def requestsMeet (a : Addr) (b : Byte) (s : State) : Bool :=
  a == generationAddr && !s.descriptor.reading && b != s.descriptor.generation &&
    s.engine.state == .emptyWait && s.port.access.isNone

/-- What follows an append: the wake of an engine in EMPTY_WAIT and the answer done (R8, R93). Where the
wake's DRAIN request and a reload's LOAD request meet on an IDLE port, R104 lets either be taken first,
and a free value decides (notes/assumptions/31.md). -/
def appendTaken (a : Addr) (b : Byte) (s : State) : State :=
  if requestsMeet a b s then
    if Config.loadBeforeDrain s.freeIndex then wakeEngine (acceptQueued a b s.takeFree)
    else acceptQueued a b (wakeEngine s.takeFree)
  else acceptQueued a b (wakeEngine s)

/-- A write is presented to the queue and taken: MERGED, or APPENDED, which wakes an engine in
EMPTY_WAIT; `none` on NO_SLOT (R7 to R9, R93). Which of two requests of an append an IDLE port takes
first is left open (R104; notes/assumptions/31.md). -/
def takeIntoQueue (a : Addr) (b : Byte) (merge : Bool) (s : State) : Option State :=
  match presentToQueue s.queue a b merge with
  | (.merged, q) => some (acceptQueued a b (countMerged { s with queue := q }))
  | (.appended, q) => some (appendTaken a b { s with queue := q })
  | (.noSlot, _) => none

/-- The disposition to queue a write (R34): done at once, or QUEUE_FULL and a slot stall on NO_SLOT
(R9, R40). -/
def queueWrite (a : Addr) (b : Byte) (merge : Bool) (s : State) : State :=
  match takeIntoQueue a b merge s with
  | some s' => s'
  | none => beginStall (.slot merge) (setCause .queueFull s)

/-! ## The other dispositions -/

/-- A HOST request of the access in progress, held back while a cancelled access still runs (R129). -/
def hostRequest (op : BusOp) (s : State) : State :=
  let s' := setStage .onPort s
  if s.host.orphan then s' else portRequest .host op s'

/-- Pass through (R39, R125). -/
def passThrough (a : Addr) (b : Byte) (s : State) : State := hostRequest (.write a b) s

/-- Discard (R36): done at once, with the discarded notice. -/
def discardWrite (s : State) : State := answerHost .done (countDiscarded s)

/-- The disposition of a write in the control window outside the status line (Table 2-2). -/
def decideWindow (a : Addr) (b : Byte) (s : State) : State :=
  match s.control.mode with
  | .startup => setStage (.waiting .startUp) s
  | .normal => passThrough a b s
  | .entering | .hold | .drain => queueWrite a b true s
  | .closing => setStage (.waiting .closing) s

/-- The disposition of a write outside the control window, by mode and policy (Table 2-3). -/
def decideRegion (p : Policy) (merge : Bool) (a : Addr) (b : Byte) (s : State) : State :=
  match p, s.control.mode with
  | _, .startup => setStage (.waiting .startUp) s
  | .readonly, _ => rejectWrite s
  | _, .normal => passThrough a b s
  | _, .closing => setStage (.waiting .closing) s
  | .defer, _ => queueWrite a b merge s
  | .block, _ => beginStall .block s
  | .discard, .drain => queueWrite a b merge s
  | .discard, _ => discardWrite s

/-- The disposition of a host write: the five tests of R32, in order. -/
def decideWrite (a : Addr) (b : Byte) (s : State) : State :=
  if s.control.mode = .startup then setStage (.waiting .startUp) s
  else if s.descriptor.reading then setStage (.waiting .reload) s
  else if inStatusLine a then rejectWrite s
  else if inWindow a then decideWindow a b s
  else
    let r := s.config.lookup (lineOf a)
    decideRegion r.1 r.2 a b s

/-- The route of a host read: the three tests of R121, in order. -/
def routeRead (a : Addr) (s : State) : State :=
  if s.control.mode = .startup then setStage (.waiting .startUp) s
  else if inStatusLine a then
    let r := readStatus (a.extractLsb' 0 4) s
    answerHost (.data r.1) r.2
  else
    match overlay s.queue a with
    | some b => answerHost (.data b) s
    | none => hostRequest (.read a) s

/-- The access in progress takes its route or disposition (R118, R124). -/
def routeAccess (s : State) : State :=
  match s.host.access with
  | none => s
  | some acc =>
    match acc.op with
    | .read a => routeRead a s
    | .write a b => decideWrite a b s

/-- The hand-over of an ack byte to the status unit, in every mode but STARTUP (R126). -/
def handOver (op : BusOp) (s : State) : State :=
  match op with
  | .write a b => if a = ackAddr ∧ s.control.mode ≠ .startup then takeAck b s else s
  | .read _ => s

/-! ## The beginning of an access (R118) -/

/-- An access begins: its address and byte are taken, an ack byte is handed over, and it takes its route
or disposition (R118, R126). -/
def beginAccess (op : BusOp) (s : State) : State :=
  routeAccess (handOver op
    { s with host := { s.host with access := some ⟨op, .waiting .startUp, false⟩ } })

/-- An access begins if the beginning condition holds: the recorded RST# level is high, no access is in
progress, HCS# is low and exactly one strobe is low; none is taken while power-on reset is asserted
(R118, R129, R131). -/
def settleHost (s : State) : State :=
  match s.porAsserted, s.host.rstHigh, s.host.access, busOp s.pins with
  | false, true, none, some op => beginAccess op s
  | _, _, _, _ => s

/-- The access in progress is routed or decided anew; at a released access's outcome a new one may
begin (R124, R120). If it is an ack write, its hand-over comes after the notices of the event that brought
the outcome, where R136 lets either be first (DESIGN CHOICE, notes/assumptions/33.md). -/
def decideAnew (s : State) : State := settleHost (routeAccess s)

/-! ## Host bus commands -/

/-- The host lowers HCS# and HOE# with an address; an access begins if it can (R118). -/
def driveRead (a : Addr) (s : State) : State := settleHost { s with pins := s.pins.lowerRead a }

/-- The host lowers HCS# and HWE# with an address and a byte; an access begins if it can (R118). -/
def driveWrite (a : Addr) (b : Byte) (s : State) : State :=
  settleHost { s with pins := s.pins.lowerWrite a b }

/-- The host ends the access in progress: after the answer it becomes none (R119), before the answer it
is released (R120). -/
def endOrRelease (acc : HostAccess) (s : State) : State :=
  { s with host := { s.host with
    access :=
      match acc.stage with
      | .answered _ => none
      | _ => some { acc with released := true } } }

/-- The host returns a line high (R118, R119, R120). -/
def raiseLine (l : HostLine) (s : State) : State :=
  let s' := { s with pins := s.pins.raise l }
  match s.host.access with
  | none => settleHost s'
  | some acc => if endsAccess l acc.op then settleHost (endOrRelease acc s') else s'

/-! ## What other blocks' events do to the access in progress -/

/-- A slot-freed notice: a write in a slot stall is presented again (R10, R41). -/
def slotFreed (s : State) : State :=
  match s.host.access with
  | some ⟨.write a b, .stalled (.slot merge), _⟩ =>
    match takeIntoQueue a b merge s with
    | some s' => settleHost (stopStall s')
    | none => s
  | _ => s

/-- Whether the access's HOST request is not yet granted: it still waits, or is held back (R129). -/
def hostUngranted (s : State) : Bool := (s.port.waiting.get .host).isSome || s.host.orphan

/-- Whether this hand-over is of an ack byte that names HOLD_ENTERED, at an entry to ENTERING or HOLD, where
the entry's notice and the ack reach the same cause (R136). -/
def ackMeetsEntry (op : BusOp) (s : State) : Bool :=
  match op, s.control.mode with
  | .write a b, .entering => a == ackAddr && b.getLsbD 0
  | .write a b, .hold => a == ackAddr && b.getLsbD 0
  | _, _ => false

/-- The hand-over of a waiting ack byte at the start-up end event (R169, R126), after the entry to the
first working mode. LOSS_SUSPECTED and CONFIG_REJECTED are set before it (R136). Where the ack names
HOLD_ENTERED and the same entry sends its notice, R136 lets either be taken first, and a free value
decides whether the notice comes after the ack and leaves the cause pending (notes/assumptions/32.md). -/
def handOverAtStart (op : BusOp) (s : State) : State :=
  if ackMeetsEntry op s then
    if Config.noticeAfterAck s.freeIndex then setCause .holdEntered (handOver op s.takeFree)
    else handOver op s.takeFree
  else handOver op s

/-- A change of mode, the start-up end event among them, as the access in progress takes it: the end of
a START_UP wait with the ack hand-over (R169; its order against the entry's own HOLD_ENTERED notice is
left open, notes/assumptions/32.md), the end of a CLOSING wait (R38), the withdrawal of an ungranted
pass-through write (R39), and the end of a BLOCK stall at NORMAL (R42). The mode's own notices,
HOLD_ENTERED and DRAIN_DONE, have been taken before, also before the ack of a new access that begins at a
released one's outcome (R120, R136; DESIGN CHOICE, notes/assumptions/33.md). -/
def hostModeChanged (s : State) : State :=
  match s.host.access with
  | none => s
  | some acc =>
    match acc.stage with
    | .waiting .startUp =>
      if s.control.mode ≠ .startup then decideAnew (handOverAtStart acc.op s) else s
    | .waiting .closing => if s.control.mode ≠ .closing then decideAnew s else s
    | .onPort =>
      match acc.op with
      | .write _ _ =>
        if s.control.mode ≠ .normal ∧ hostUngranted s = true then
          decideAnew (portWithdraw .host s)
        else s
      | .read _ => s
    | .stalled .block =>
      match acc.op with
      | .write a b => if s.control.mode = .normal then passThrough a b (stopStall s) else s
      | .read _ => s
    | _ => s

/-- The end of a reload: a write in a RELOAD wait is decided anew (R124, R158). -/
def hostReloadEnded (s : State) : State :=
  match s.host.access with
  | some ⟨_, .waiting .reload, _⟩ => if s.descriptor.reading then s else decideAnew s
  | _ => s

/-- An RST# falling edge (R128, Table 7-4): the access in progress ends by its stage, an ungranted
request is withdrawn, a granted access runs on without its host, and the snapshot is invalidated
(R139). -/
def resetHost (s : State) : State :=
  let onPort :=
    match s.host.access with
    | some ⟨_, .onPort, _⟩ => true
    | _ => false
  let s' := if onPort = true ∧ hostUngranted s = true then portWithdraw .host s else s
  { s' with
    host := {
      access := none
      stallTimer := none
      rstHigh := false
      orphan := s.host.orphan || (onPort && !hostUngranted s) }
    status := { s'.status with snapshotValid := false } }

end Sys2Proof.Machine
end

