-- ==== Sys2Proof/Machine/Modes.lean ====
section
/-! DEFINITION. The mode controller (chapter 3): entries to the modes, the HOLD exit condition and the
events TRIP, WARN, CLEAR, HREQ edges and the queue-empty report. -/

namespace Sys2Proof.Machine

open Sys2Proof

/-! ## Fields of the controller -/

/-- The mode changes (R46, R47). -/
def setMode (m : Mode) (s : State) : State := { s with control := { s.control with mode := m } }

/-- The shadow safety state is written (Table 8-1). -/
def setSafety (f : Safety) (s : State) : State := { s with status := { s.status with safety := f } }

/-- The awaited write's marker is set (R49). -/
def awaitWrite (k : AwaitedKind) (s : State) : State :=
  { s with control := { s.control with awaited := some ⟨k, false⟩ } }

/-- The marker is set to none (R49, R51). -/
def awaitNone (s : State) : State := { s with control := { s.control with awaited := none } }

/-- The safety state that goes with the monitor state in NORMAL and CLOSING (R52, R65). -/
def monitorSafety : MonitorState → Safety
  | .good => .clean
  | .warned => .atRisk

/-- A hold episode begins: the hold reason, HOLD_ENTERED and the hold-episode count (R50). -/
def beginEpisode (r : HoldReason) (s : State) : State :=
  countEpisode { s with control := { s.control with reason := r } }

/-- The drain engine takes a change of mode out of DRAIN (R100). -/
def leaveDrain (before : Mode) (s : State) : State :=
  if before = .drain then stopEngine s else s

/-! ## Entries to the modes -/

/-- What every entry to HOLD does (R51): mode and safety state, marker, abandonment and then UNMARKED
(R145, R148), the drain engine's stop, and the host port's decisions. -/
def enterHold (s : State) : State :=
  let s1 := determineUnmarked (abandonStatusWrite (awaitNone (setSafety .held (setMode .hold s))))
  hostModeChanged (leaveDrain s.control.mode s1)

/-- An entry to ENTERING, from NORMAL or STARTUP (R54, R168): a forced episode, and the HELD write
requested and awaited. -/
def enterEntering (s : State) : State :=
  hostModeChanged
    (requestStatusWrite
      (awaitWrite .held (setSafety .held (setMode .entering (beginEpisode .forced s)))))

/-- An entry to DRAIN (R60): the DRAINING write requested and awaited, the ramp level set to 7. -/
def enterDrain (s : State) : State :=
  let s1 := setSafety .draining (setMode .drain s)
  hostModeChanged
    (requestStatusWrite
      (awaitWrite .draining { s1 with engine := { s1.engine with rampLevel := 7 } }))

/-- An entry to CLOSING (R61, R65): the safety state by the monitor state, the FINAL write requested and
awaited, the drain engine stopped. -/
def enterClosing (s : State) : State :=
  let s1 := setSafety (monitorSafety s.monitor.state) (setMode .closing s)
  hostModeChanged
    (requestStatusWrite (awaitWrite .final (leaveDrain s.control.mode s1)))

/-- The entry to NORMAL from CLOSING (R67): HELD falls with the mode and DRAIN_DONE is sent. -/
def closeToNormal (s : State) : State :=
  hostModeChanged (setCause .drainDone (setMode .normal (awaitNone s)))

/-! ## The HOLD exit (R59) -/

/-- The HOLD exit condition: the recorded HREQ level is low and the monitor state is GOOD (R59). -/
def exitCondition (s : State) : Bool := !s.control.hreq && s.monitor.state == .good

/-- The exit condition is evaluated while the mode is HOLD: to DRAIN with an entry held, to CLOSING with
none (R59, R60, R61). -/
def evaluateExit (s : State) : State :=
  if s.control.mode = .hold ∧ exitCondition s = true then
    if s.queue = [] then enterClosing s else enterDrain s
  else s

/-! ## Events -/

/-- A hold begun by this reason: an episode and an entry to HOLD (R53, R63, R64, R68). -/
def beginHold (r : HoldReason) (s : State) : State := enterHold (beginEpisode r s)

/-- TRIP, alone or as the second half of a WARN and TRIP pair, by mode: R167 and R165 in STARTUP, R53,
R56, R58, R63, R68. -/
def takeTrip (s : State) : State :=
  match s.control.mode with
  | .startup => beginHold .auto { s with sequencer := { s.sequencer with step := .ended } }
  | .normal => beginHold .auto s
  | .entering => enterHold s
  | .hold => s
  | .drain => beginHold .auto s
  | .closing => beginHold .auto s

/-- WARN or CLEAR where it moves the safety state: the new state and a status write request
(R52, R167). -/
def followMonitor (s : State) : State :=
  requestStatusWrite (setSafety (monitorSafety s.monitor.state) s)

/-- WARN raised alone, by mode: R52, R57, R58, R66, R167. -/
def takeWarn (s : State) : State :=
  match s.control.mode with
  | .startup | .normal | .closing => followMonitor s
  | .entering | .hold | .drain => s

/-- CLEAR, by mode: R52, R57, R59, R66, R167. -/
def takeClear (s : State) : State :=
  match s.control.mode with
  | .startup | .normal | .closing => followMonitor s
  | .hold => evaluateExit s
  | .entering | .drain => s

/-- An HREQ rising edge (R48): recorded, and by mode R54, R57, R58, R64, R68. -/
def takeHreqRising (s : State) : State :=
  let s1 := { s with control := { s.control with hreq := true } }
  match s.control.mode with
  | .normal => enterEntering s1
  | .drain | .closing => beginHold .forced s1
  | .startup | .entering | .hold => s1

/-- An HREQ falling edge (R48): recorded, and in HOLD the exit condition is evaluated (R59). -/
def takeHreqFalling (s : State) : State :=
  evaluateExit { s with control := { s.control with hreq := false } }

/-- A queue-empty report is taken (R65): in DRAIN with the queue still empty it leads to CLOSING. -/
def takeQueueEmpty (s : State) : State :=
  let s1 := { s with queueEmptyReports := s.queueEmptyReports - 1 }
  if s.control.mode = .drain ∧ s.queue = [] then enterClosing s1 else s1

end Sys2Proof.Machine
end

