-- ==== Sys2Proof/Machine/Supply.lean ====
section
/-! DEFINITION. The supply monitor (chapter 4): one sample, its filters, its reports and its events,
and the re-aiming of the sample timer at a change of mode. -/

namespace Sys2Proof.Machine

open Sys2Proof

/-- What one sample raises to the mode controller (R77, Table 4-3). `warnTrip` is the pair of R74. -/
inductive SupplyEvent
  | nothing | warn | clear | trip | warnTrip
  deriving DecidableEq, Repr

/-- One sample in GOOD state (R73, R74). -/
def sampleGood (filter : Nat) (c : SupplyClass) (m : SupplyMonitor) : SupplyMonitor × SupplyEvent :=
  match c with
  | .good => ({ m with warnRun := 0 }, .nothing)
  | .marginal =>
    if m.warnRun + 1 < filter then ({ m with warnRun := m.warnRun + 1 }, .nothing)
    else ({ m with state := .warned, warnRun := 0 }, .warn)
  | .low => ({ m with state := .warned, warnRun := 0 }, .warnTrip)

/-- One sample in WARNED state (R75, R76). -/
def sampleWarned (filter : Nat) (c : SupplyClass) (m : SupplyMonitor) :
    SupplyMonitor × SupplyEvent :=
  match c with
  | .good =>
    if m.recoveryRun + 1 < filter then ({ m with recoveryRun := m.recoveryRun + 1 }, .nothing)
    else ({ m with state := .good, recoveryRun := 0 }, .clear)
  | .marginal => ({ m with recoveryRun := 0 }, .nothing)
  | .low => ({ m with recoveryRun := 0 }, .trip)

/-- One sample after the first, by the monitor state (R73 to R76, Table 4-3). -/
def sampleFilter (cfg : Configuration) (c : SupplyClass) (m : SupplyMonitor) :
    SupplyMonitor × SupplyEvent :=
  match m.state with
  | .good => sampleGood cfg.warnFilter c m
  | .warned => sampleWarned cfg.recoveryFilter c m

/-- The first sample: it sets the monitor state directly, and both runs are 0 after it (R72). -/
def sampleFirst (c : SupplyClass) (m : SupplyMonitor) : SupplyMonitor × SupplyEvent :=
  match c with
  | .good => ({ m with warnRun := 0, recoveryRun := 0 }, .nothing)
  | .marginal => ({ m with state := .warned, warnRun := 0, recoveryRun := 0 }, .warn)
  | .low => ({ m with state := .warned, warnRun := 0, recoveryRun := 0 }, .warnTrip)

/-- The sample timer after a sample taken now: aimed one period ahead (R71). -/
def aimTimer (s : State) : State :=
  { s with monitor := { s.monitor with
    timer := some ⟨s.now, s.now + samplePeriod s.control.mode⟩ } }

/-- The class of VSEN under the warning code in force (R70). -/
def sampleClass (s : State) : SupplyClass := classOf s.config.warningCode s.pins.vsen

/-- The mode controller takes a sample's events (R77). -/
def takeSupplyEvent (e : SupplyEvent) (s : State) : State :=
  match e with
  | .nothing => s
  | .warn => takeWarn s
  | .clear => takeClear s
  | .trip | .warnTrip => takeTrip s

/-- The sample timer's sample, up to its events: class, monitor state, class report and timer
(R70, R71, R78, R79). -/
def measure (f : SupplyClass → SupplyMonitor → SupplyMonitor × SupplyEvent) (s : State) :
    SupplyEvent × State :=
  let c := sampleClass s
  let r := f c s.monitor
  (r.2, aimTimer (engineClass c { s with monitor := r.1 }))

/-- A sample after the first (R70 to R79). -/
def takeSample (s : State) : State :=
  let r := measure (sampleFilter s.config) s
  takeSupplyEvent r.1 r.2

/-- A change of mode between a 125 µs mode and HOLD re-aims the sample timer: the next sample is due one
period of the new mode after the last sample, or now if that instant has passed (R71). -/
def reaim (before : Mode) (s : State) : State :=
  match s.monitor.timer with
  | none => s
  | some t =>
    if samplePeriod before = samplePeriod s.control.mode then s
    else
      { s with monitor := { s.monitor with
        timer := some ⟨t.last, max s.now (t.last + samplePeriod s.control.mode)⟩ } }

/-- The end of an event, as the blocks that follow the mode take it: the monitor re-aims by the mode as
the controller leaves it (R71), and at a change of mode an IDLE port takes a grant decision
(R106). -/
def afterEvent (before : Mode) (s : State) : State :=
  if s.control.mode = before then s else decideGrant (reaim before s)

end Sys2Proof.Machine
end

