-- ==== Sys2Proof/Machine/StartUp.lean ====
section
/-! DEFINITION. The start-up sequencer (chapter 10): the reading of the previous life's line, the loss
assessment, the start-up load, the first sample and the choice of the first mode. -/

namespace Sys2Proof.Machine

open Sys2Proof

/-- The loss assessment (R163, Table 10-2, R147). -/
def assessLine (bs : List Byte) (s : State) : State :=
  if statusLineValid bs then
    let sf := lineSafety bs
    if sf = .clean then
      { s with
        status := { s.status with
          fenceUnknown := false, lastTag := lineTag bs, fenceLoss := lineFenceLoss bs }
        engine := { s.engine with openLoss := false }
        writer := { s.writer with record := .empty } }
    else
      setCause .lossSuspected
        { s with
          status := { s.status with
            fenceUnknown := false, lastTag := lineTag bs, fenceLoss := lineFenceLoss bs }
          engine := { s.engine with openLoss := lineOpenLoss bs }
          writer := { s.writer with record := .completed sf } }
  else
    setCause .lossSuspected
      { s with
        status := { s.status with fenceUnknown := true, lastTag := 0#8, fenceLoss := false }
        engine := { s.engine with openLoss := false }
        writer := { s.writer with record := .empty } }

/-- The start-up apply: a valid descriptor, or the default configuration with CONFIG_REJECTED
(R164, R153). -/
def applyAtStart (s : State) : State :=
  let s1 := { s with descriptor := { s.descriptor with reading := false, held := none } }
  if descriptorValid s.descriptor.bytes then
    applyConfig (descriptorConfig s.descriptor.bytes) (descriptorGeneration s.descriptor.bytes) s1
  else setCause .configRejected (applyConfig Configuration.default 0#8 s1)

/-- After a GOOD or MARGINAL first sample: the safety state and the start-up write (R166). -/
def beginStartWrite (s : State) : State :=
  followMonitor { s with sequencer := { s.sequencer with step := .startWrite } }

/-- The end of the start-up load: the apply, the first sample, and the next step by its class
(R164 to R166). -/
def finishStartLoad (s : State) : State :=
  let r := measure sampleFirst (applyAtStart s)
  match r.1 with
  | .trip | .warnTrip => takeTrip r.2
  | .nothing | .warn | .clear => beginStartWrite r.2

/-- In DESCRIPTOR_LOAD, the reading goes on from the current index and ends with the load (R164). -/
def continueStartLoad (s : State) : State :=
  let s1 := advanceReading s
  if readingComplete s1 then finishStartLoad s1 else s1

/-- In STATUS_READ, the next line byte is looked up and, on a miss, requested; at the 16th the line is
judged and the descriptor's reading begins (R162, R163, R164). -/
def continueStatusRead (s : State) : State :=
  let bs := gatherHeld s.queue statusBase statusLength statusLength s.sequencer.bytes
  let s1 := { s with sequencer := { s.sequencer with bytes := bs } }
  if bs.length < statusLength then
    portRequest .load (.read (statusBase + BitVec.ofNat 20 bs.length)) s1
  else
    let s2 := assessLine bs s1
    continueStartLoad
      { s2 with
        sequencer := { s2.sequencer with step := .descriptorLoad }
        descriptor := { s2.descriptor with reading := true, bytes := [] } }

/-- The end of the start-up write: the first working mode by the recorded HREQ level (R168). -/
def chooseFirstMode (s : State) : State :=
  let s1 := { s with sequencer := { s.sequencer with step := .ended } }
  if s.control.hreq then enterEntering s1 else hostModeChanged (setMode .normal s1)

/-- Every block at its power-on reset value (R27, R46, R69, R84, R116, R131, R132, R142, R154, R170). The
snapshot latch is not valid and keeps its bytes (R139). The memory, the pins, the waiting commands, the
clock and the count of free values are not the blocks' and stay. -/
def powerOn (s : State) : State :=
  { State.reset with
    pending := s.pending, pins := s.pins, memory := s.memory, now := s.now
    freeIndex := s.freeIndex
    status := { State.reset.status with snapshot := s.status.snapshot } }

/-- The release of power-on reset (R161, R46, R131): STARTUP at STATUS_READ index 0, the recorded HREQ
and RST# levels from their pins; an access begins if the host holds a strobe low (R118). -/
def releaseReset (s : State) : State :=
  let s1 := powerOn s
  settleHost (continueStatusRead
    { s1 with
      porAsserted := false
      control := { s1.control with hreq := s.pins.hreq }
      host := { s1.host with rstHigh := s.pins.rst } })

end Sys2Proof.Machine
end

