-- ==== Sys2Proof/Machine/Completion.lean ====
section
/-! DEFINITION. Completions (6.5): what each requester does with the end of its access, the ends of
status writes, and the grant decision that follows. -/

namespace Sys2Proof.Machine

open Sys2Proof

/-- The completion of an access (R113): the byte of a read, done or fault of a write. -/
inductive Completion
  | byte (b : Byte)
  | done
  | fault
  deriving DecidableEq, Repr

/-! ## The ends of status writes (R144, R145, R49, R89, R168) -/

/-- The write in flight has ended: the writer is IDLE, its pending flag as it was (R144, R145). -/
def writerIdle (s : State) : State :=
  { s with writer := { s.writer with state := .idle, abandoned := false } }

/-- If the pending flag is set, the IDLE writer clears it and a new write begins at once, with an image of
the shadow as it stands (R144, R145). -/
def beginPending (s : State) : State :=
  if s.writer.state = .idle ∧ s.writer.pending = true then
    beginStatusWrite { s with writer := { s.writer with pending := false } }
  else s

/-- The end of the awaited HELD, DRAINING or FINAL write: the controller's next step
(R55, R62, R67). -/
def awaitedEnded (k : AwaitedKind) (s : State) : State :=
  let s1 := awaitNone s
  match k, s.control.mode with
  | .held, .entering => evaluateExit (enterHold s1)
  | .draining, .drain => startEngine s1
  | .final, .closing => closeToNormal s1
  | _, _ => s1

/-- The end, done or faulted, of a status write as it reaches the drain engine: if it was the engine's
awaited write, the WAIT may end (R89). -/
def engineStatusEnded (s : State) : State :=
  endWait { s with engine := { s.engine with awaited := .nothing } }

/-- The end of a status write is reported to the mode controller and to the drain engine, each of which
acts on it if this was the write it awaits (R144, R49, R89). -/
def reportEnd (s : State) : State :=
  let s1 :=
    match s.control.awaited with
    | some ⟨k, true⟩ => awaitedEnded k s
    | _ => s
  if s.engine.awaited = .begun then engineStatusEnded s1 else s1

/-- A status write that was not abandoned has ended, done or faulted (R144). The end is reported first, and
then a pending write begins, with an image of the shadow as the reports have left it: after a FINAL
write it is in NORMAL and carries DRAIN_DONE (R67; notes/assumptions/14.md). At the end of the start-up
write the pending write begins in STARTUP, before the sequencer's choice (R168). -/
def statusWriteEnded (s : State) : State :=
  let s1 := reportEnd (writerIdle s)
  if s.control.mode = .startup ∧ s.sequencer.step = .startWrite then
    chooseFirstMode (beginPending s1)
  else beginPending s1

/-- The done end of a status write: the record, and UNMARKED cleared by a non-CLEAN image
(R144, R149). -/
def recordDone (s : State) : State :=
  let sf := s.writer.image.safety
  { s with
    writer := { s.writer with record := .completed sf }
    status := { s.status with unmarked := if sf = .clean then s.status.unmarked else false } }

/-- A STATUS completion (R144, R145). -/
def statusCompletion (c : Completion) (s : State) : State :=
  match s.writer.state with
  | .idle => s
  | .writing n =>
    if s.writer.abandoned then
      beginPending (writerIdle (if c = .fault then setCause .memFault s else s))
    else if c = .fault then
      statusWriteEnded
        (setCause .memFault { s with writer := { s.writer with record := .faulted } })
    else if n = 15#4 then statusWriteEnded (recordDone s)
    else
      portRequest .status (statusByteWrite s.writer.image (n + 1#4))
        { s with writer := { s.writer with state := .writing (n + 1#4) } }

/-! ## LOAD completions (R157, R162) -/

/-- A reload's byte is taken, the reading goes on, and at its end the host port is told (R157 to
R159). -/
def reloadByte (b : Byte) (s : State) : State :=
  let s1 := advanceReading
    { s with descriptor := { s.descriptor with bytes := s.descriptor.bytes ++ [b] } }
  hostReloadEnded (finishReading 2 s1)

/-- A LOAD completion, for the start-up sequencer's line, the start-up load or a reload (Table
6-6). -/
def loadCompletion (b : Byte) (s : State) : State :=
  match s.sequencer.step with
  | .statusRead =>
    continueStatusRead
      { s with sequencer := { s.sequencer with bytes := s.sequencer.bytes ++ [b] } }
  | .descriptorLoad =>
    continueStartLoad
      { s with descriptor := { s.descriptor with bytes := s.descriptor.bytes ++ [b] } }
  | .startWrite | .ended => if s.descriptor.reading then reloadByte b s else s

/-! ## HOST completions (R119, R122, R125, R127, R128) -/

/-- The notices a done pass-through write sends: a fence completion for FFF11H, a generation notice for
FFF22H (R127). -/
def writeTakesEffect (a : Addr) (b : Byte) (s : State) : State :=
  if a = fenceAddr then completeFence b s
  else if a = generationAddr then generationNotice b s
  else s

/-- The completion of an access that RST# cancelled after its grant (Table 7-4); a request held back
until now is made (R129). -/
def orphanCompletion (op : BusOp) (c : Completion) (s : State) : State :=
  let s1 :=
    match op, c with
    | .write a b, .done => writeTakesEffect a b s
    | .write _ _, .fault => setCause .memFault s
    | _, _ => s
  let s2 := { s1 with host := { s1.host with orphan := false } }
  match s2.host.access with
  | some ⟨o, .onPort, _⟩ => portRequest .host o s2
  | _ => s2

/-- A HOST completion: the host is answered, with the notices of the outcome, and at a released access's
outcome a new access may begin (R122, R125, R127, R120). -/
def hostCompletion (op : BusOp) (c : Completion) (s : State) : State :=
  if s.host.orphan then orphanCompletion op c s
  else
    match op, c with
    | .read _, .byte b => settleHost (answerHost (.data b) s)
    | .write a b, .done => settleHost (writeTakesEffect a b (answerHost .done s))
    | .write _ _, .fault => settleHost (rejectWrite (setCause .memFault s))
    | _, _ => s

/-! ## DRAIN completions (5.3, 5.6, 5.7) -/

/-- The written report and what follows from it: the queue's removal with its slot-freed notice, and for
a fence the fence-completion request with its status write; then the queue-empty report
(R87, R88, R101). `awaits` says whether the engine waits for that status write. -/
def reportWritten (w : DrainWrite) (awaits : Bool) (s : State) : State :=
  let r := writtenReport s.queue (offsetOf w.addr)
  let s1 := { s with queue := r.2 }
  let s2 := if r.1 then slotFreed s1 else s1
  let s3 :=
    if w.fence then
      requestStatusWrite (completeFence w.byte
        (if awaits then { s2 with engine := { s2.engine with awaited := .requested } } else s2))
    else s2
  reportIfEmpty (r.1 && r.2.isEmpty) s3

/-- A done completion in WRITING (R87, R88). -/
def drainDone (w : DrainWrite) (s : State) : State :=
  startGap (reportWritten w true { s with engine := { s.engine with attempts := 0 } })

/-- A drop after the third failed attempt (R96, R97, R98). -/
def dropEntry (s : State) : State :=
  let q := dropHead s.queue
  let s1 := slotFreed { s with queue := q }
  let s2 := countDropped s1
  let s3 := { s2 with engine := { s2.engine with
    openLoss := true, attempts := 0, state := .wait, outstanding := none, gapTimer := none
    awaited := .requested } }
  requestStatusWrite (reportIfEmpty q.isEmpty s3)

/-- A fault completion in WRITING (R95 to R97). -/
def drainFault (s : State) : State :=
  let s1 := setCause .memFault s
  if s.engine.attempts + 1 < 3 then
    { s1 with engine := { s1.engine with
      attempts := s.engine.attempts + 1, state := .pause, outstanding := none
      retryTimer := some (s.now + retryPause) } }
  else dropEntry s1

/-- A completion in STOPPING, then the release (R101). -/
def stoppingCompletion (w : DrainWrite) (c : Completion) (s : State) : State :=
  releaseAndStop (if c = .fault then setCause .memFault s else reportWritten w false s)

/-- A DRAIN completion, by the engine's state (R87, R88, R95, R101). -/
def drainCompletion (c : Completion) (s : State) : State :=
  match s.engine.state, s.engine.outstanding with
  | .writing, some w => if c = .fault then drainFault s else drainDone w s
  | .stopping, some w => stoppingCompletion w c s
  | _, _ => s

/-! ## The end of an access (R106, R113) -/

/-- The completion is delivered to the requester that made the request (R113). -/
def deliver (acc : PortAccess) (c : Completion) (s : State) : State :=
  match acc.requester with
  | .status => statusCompletion c s
  | .load =>
    match c with
    | .byte b => loadCompletion b s
    | _ => s
  | .host => hostCompletion acc.op c s
  | .drain => drainCompletion c s

/-- What the end of a write leaves in the memory: a done write its byte (R114), a fault after the strobe
was issued perhaps a disturbed neighbour (R111). A fault in the ready wait leaves the memory. For a status
byte Table 6-7 and R146 have the bytes above it as before, and R111 lets the next one be disturbed: the
model follows R111 for every requester (DESIGN CHOICE, notes/assumptions/9.md). -/
def leaveMemory (acc : PortAccess) (c : Completion) (s : State) : State :=
  match acc.op, c with
  | .write a b, .done => { s with memory := memWrite s.memory a b }
  | .write a _, .fault => if acc.phase = .readyWait then s else disturbNeighbours a s
  | _, _ => s

/-- The end of the access in progress: the timer stops, a done write is in the memory, the completion is
delivered, the port is IDLE, and the grant decision is taken (R109, R110, R111, R113, R106). -/
def endAccess (acc : PortAccess) (c : Completion) (s : State) : State :=
  let s1 := leaveMemory acc c { s with port := { s.port with timeout := none } }
  let s2 := deliver acc c s1
  afterEvent s.control.mode
    (decideAtEnd acc.requester s.port.waiting
      { s2 with port := { s2.port with access := none } })

end Sys2Proof.Machine
end

