-- ==== Sys2Proof/Machine/ResetCommands.lean ====
section
/-! DEFINITION. The commands POR_ASSERT, POR_RELEASE, RST_FALLING, RST_RISING, HREQ_RISING and
HREQ_FALLING. While power-on reset is asserted every block is held at its reset values and an edge
only moves its pin (R82, R131, R161; notes/assumptions/11.md). -/

namespace Sys2Proof.Machine

open Sys2Proof

/-- What every meaning of this model answers: the part goes on. -/
abbrev Result := Host.Outcome State Fault Refusal

/-- What power-on reset does to the memory: a byte whose strobe had begun is unknown already (R114), and a
write in its busy watch is completed or failed by the memory's own behaviour, so that it may have
disturbed a neighbour as a faulted one may (R116, R111; notes/assumptions/9.md). -/
def cutOffWrite (s : State) : State :=
  match s.port.access with
  | some ⟨_, .write a _, .busyWatch⟩ => disturbNeighbours a s
  | _ => s

/-- POR_ASSERT (R170, R116, R27): every block returns to its reset values, and an access in progress ends
at once. -/
def execPorAssert (s : State) : Result := .next (powerOn (cutOffWrite s))

/-- POR_RELEASE (R161), with the pins as they stand at the release. Without power-on reset asserted there
is no release to take (notes/assumptions/4.md). -/
def execPorRelease (hreq rst mrdy : Bool) (vsen : Nat) (s : State) : Result :=
  if s.porAsserted then
    .next (releaseReset { s with pins := { s.pins with
      hreq := hreq, rst := rst, mrdy := mrdy, vsen := vsen } })
  else .next s

/-- RST_FALLING (R128). Taken with the recorded level low already, where the manual knows no edge, it acts
as the edge did (DESIGN CHOICE, notes/assumptions/4.md). -/
def execRstFalling (s : State) : Result :=
  let s1 := { s with pins := { s.pins with rst := false } }
  .next (if s.porAsserted then s1 else resetHost s1)

/-- RST_RISING (R129). Taken with the recorded level high already, it acts as the edge did (DESIGN CHOICE,
notes/assumptions/4.md). -/
def execRstRising (s : State) : Result :=
  let s1 := { s with pins := { s.pins with rst := true } }
  .next (if s.porAsserted then s1
    else settleHost { s1 with host := { s1.host with rstHigh := true } })

/-- HREQ_RISING (R54, R48). Taken with the recorded level high already, it acts as the edge did (DESIGN
CHOICE, notes/assumptions/4.md). -/
def execHreqRising (s : State) : Result :=
  let s1 := { s with pins := { s.pins with hreq := true } }
  .next (if s.porAsserted then s1 else afterEvent s.control.mode (takeHreqRising s1))

/-- HREQ_FALLING (R59, R48). Taken with the recorded level low already, it acts as the edge did (DESIGN
CHOICE, notes/assumptions/4.md). -/
def execHreqFalling (s : State) : Result :=
  let s1 := { s with pins := { s.pins with hreq := false } }
  .next (if s.porAsserted then s1 else afterEvent s.control.mode (takeHreqFalling s1))

end Sys2Proof.Machine
end

