-- ==== Sys2Proof/Machine/HostCommands.lean ====
section
/-! DEFINITION. The commands of the bus master: host reads and writes by row of the table, the end of
an access and the early release. Each read or write drives the bus; an access begins if the beginning
condition of R118 holds (notes/assumptions/11.md), and is routed by its address. -/

namespace Sys2Proof.Machine

open Sys2Proof

/-- HOST_READ (R121). -/
def execHostRead (addr : Addr) (s : State) : Result := .next (driveRead addr s)

/-- STATUS_BYTE_0_READ (R138): a host read of FFF00H. -/
def execStatusByte0Read (s : State) : Result := .next (driveRead statusBase s)

/-- STATUS_BYTE_READ (R139): a host read of FFF00H plus the offset. -/
def execStatusByteRead (offset : Offset) (s : State) : Result :=
  .next (driveRead (statusAddr offset) s)

/-- HOST_WRITE (R32). -/
def execHostWrite (addr : Addr) (byte : Byte) (s : State) : Result :=
  .next (driveWrite addr byte s)

/-- STATUS_LINE_WRITE (R33): a host write to FFF00H plus the offset. -/
def execStatusLineWrite (offset : Offset) (byte : Byte) (s : State) : Result :=
  .next (driveWrite (statusAddr offset) byte s)

/-- ACK_WRITE (R136, R126): a host write to FFF10H. -/
def execAckWrite (byte : Byte) (s : State) : Result := .next (driveWrite ackAddr byte s)

/-- FENCE_WRITE (R127, R13): a host write to FFF11H. -/
def execFenceWrite (byte : Byte) (s : State) : Result := .next (driveWrite fenceAddr byte s)

/-- GENERATION_WRITE (R155, R127): a host write to FFF22H. -/
def execGenerationWrite (byte : Byte) (s : State) : Result :=
  .next (driveWrite generationAddr byte s)

/-- HOST_ACCESS_END (R119): a line returned high; after the answer the access ends. Taken before the
answer it is an early release (R120; notes/assumptions/10.md). -/
def execHostAccessEnd (line : HostLine) (s : State) : Result := .next (raiseLine line s)

/-- EARLY_RELEASE (R120): a line returned high; before the answer the access is released. Taken after
the answer it ends the access (R119; notes/assumptions/10.md). -/
def execEarlyRelease (line : HostLine) (s : State) : Result := .next (raiseLine line s)

end Sys2Proof.Machine
end

