-- ==== Sys2Proof/Machine/TimerCommands.lean ====
section
/-! DEFINITION. The commands of the part's own timers and of the queue-empty report: SAMPLE,
QUEUE_EMPTY_REPORT, STALL_EXPIRY, GAP_EXPIRY, RETRY_PAUSE_EXPIRY, RAMP_STEP. An expiry whose timer is
stopped, and a report when none is outstanding, find nothing to take (notes/assumptions/4.md). -/

namespace Sys2Proof.Machine

open Sys2Proof

/-- SAMPLE (R70 to R79): the sample timer expires with VSEN at this level. While it is stopped no sample
is taken (R72). -/
def execSample (vsen : Nat) (s : State) : Result :=
  let s1 := { s with pins := { s.pins with vsen := vsen } }
  match s.monitor.timer with
  | none => .next s1
  | some t => .next (afterEvent s.control.mode (takeSample (s1.reach t.due)))

/-- QUEUE_EMPTY_REPORT (R65, R22, R94). -/
def execQueueEmptyReport (s : State) : Result :=
  if s.queueEmptyReports = 0 then .next s
  else .next (afterEvent s.control.mode (takeQueueEmpty s))

/-- Whether the access in progress is a stalled write (Table 7-1). -/
def State.stalled (s : State) : Bool :=
  match s.host.access with
  | some ⟨_, .stalled _, _⟩ => true
  | _ => false

/-- STALL_EXPIRY (R40): the write still stalled is answered ERR; at a released write's outcome a new
access may begin (R120). -/
def execStallExpiry (s : State) : Result :=
  match s.host.stallTimer with
  | none => .next s
  | some due =>
    let s1 := stopStall (s.reach due)
    .next (if s.stalled then settleHost (rejectWrite s1) else s1)

/-- GAP_EXPIRY (R89). -/
def execGapExpiry (s : State) : Result :=
  match s.engine.gapTimer with
  | none => .next s
  | some due =>
    let s1 := s.reach due
    .next (endWait { s1 with engine := { s1.engine with gapTimer := none } })

/-- RETRY_PAUSE_EXPIRY (R95): the same head is claimed again. -/
def execRetryPauseExpiry (s : State) : Result :=
  match s.engine.retryTimer with
  | none => .next s
  | some due =>
    let s1 := s.reach due
    let s2 := { s1 with engine := { s1.engine with retryTimer := none } }
    .next (if s.engine.state = .pause then claimHead s2 else s2)

/-- RAMP_STEP (R91). -/
def execRampStep (s : State) : Result :=
  match s.engine.rampTimer with
  | none => .next s
  | some due => .next (rampExpiry (s.reach due))

end Sys2Proof.Machine
end

