-- ==== Sys2Proof/Machine/MemoryCommands.lean ====
section
/-! DEFINITION. The commands of the memory bus: WRITE_STROBE_END, MRDY_READY, WRITE_TIMEOUT,
READ_STROBE_END (6.3, 6.4). A command that names a phase no access is in only moves the MRDY pin
(R110; notes/assumptions/4.md, 13.md). -/

namespace Sys2Proof.Machine

open Sys2Proof

/-- The access in progress moves to a phase. -/
def setPhase (acc : PortAccess) (p : Phase) (s : State) : State :=
  { s with port := { s.port with access := some { acc with phase := p } } }

/-- The write strobe of an access ends with MRDY at this level (R110). With MRDY high the write is done;
with MRDY low the busy watch begins. A write whose timeout reached 2 ms within the strobe was not done
by then, so it faults at the strobe's end, whatever MRDY (R111; notes/assumptions/8.md). -/
def endWriteStrobe (acc : PortAccess) (late mrdy : Bool) (s : State) : State :=
  match late, mrdy with
  | false, true => endAccess acc .done s
  | false, false => setPhase acc .busyWatch s
  | true, _ => endAccess acc .fault s

/-- WRITE_STROBE_END (R110). -/
def execWriteStrobeEnd (mrdy : Bool) (s : State) : Result :=
  match s.port.access with
  | some ⟨r, op, .writeStrobe late⟩ =>
    .next (endWriteStrobe ⟨r, op, .writeStrobe late⟩ late mrdy
      { s with pins := { s.pins with mrdy := mrdy } })
  | _ => .next s

/-- MRDY_READY (R109, R110): a ready wait goes on to its strobe, a write in its busy watch is done; in
any other phase and in IDLE the rise has no effect but on the pin. -/
def execMrdyReady (s : State) : Result :=
  let s1 := { s with pins := { s.pins with mrdy := true } }
  match s.port.access with
  | some ⟨r, op, .readyWait⟩ => .next (enterStrobe ⟨r, op, .readyWait⟩ false s1)
  | some ⟨r, op, .busyWatch⟩ => .next (endAccess ⟨r, op, .busyWatch⟩ .done s1)
  | _ => .next s1

/-- The write timeout timer reaches 2 ms in this phase (R109, R111): a read's ready wait goes on to the
read strobe, a write faults in its ready wait or busy watch, a write strobe runs to its end, a
read strobe is not affected. -/
def reachTimeout (acc : PortAccess) (s : State) : State :=
  match acc.phase, acc.op with
  | .readyWait, .read _ => enterStrobe acc true s
  | .readyWait, .write _ _ => endAccess acc .fault s
  | .busyWatch, _ => endAccess acc .fault s
  | .writeStrobe _, _ => setPhase acc (.writeStrobe true) s
  | .readStrobe _, _ => s

/-- WRITE_TIMEOUT (R111). -/
def execWriteTimeout (s : State) : Result :=
  match s.port.timeout, s.port.access with
  | some due, some acc =>
    let s1 := s.reach due
    .next (reachTimeout acc { s1 with port := { s1.port with timeout := none } })
  | _, _ => .next s

/-- READ_STROBE_END (R109): the byte on MD7–MD0 is delivered. -/
def execReadStrobeEnd (s : State) : Result :=
  match s.port.access with
  | some ⟨r, op, .readStrobe busy⟩ =>
    let d := driveByte op.addr busy s
    .next (endAccess ⟨r, op, .readStrobe busy⟩ (.byte d.1) d.2)
  | _ => .next s

end Sys2Proof.Machine
end

