-- ==== Sys2Proof/Machine/Outputs.lean ====
section
/-! DEFINITION. The output pins as functions of the state (Table 0-2): WAIT, ERR, HD, HELD, ALERT and
the memory bus. `true` is high. -/

namespace Sys2Proof.Machine

open Sys2Proof

/-- HELD is high in ENTERING, HOLD, DRAIN and CLOSING (R47). -/
def State.heldPin (s : State) : Bool :=
  match s.control.mode with
  | .startup | .normal => false
  | .entering | .hold | .drain | .closing => true

/-- Whether the access in progress is not yet answered (R117). -/
def State.unanswered (s : State) : Bool :=
  match s.host.access with
  | none => false
  | some ⟨_, .answered _, _⟩ => false
  | some _ => true

/-- WAIT: asserted under power-on reset and throughout STARTUP (R131), and otherwise while an access is
in progress and not yet answered (R119, R120, R128). -/
def State.waitPin (s : State) : Bool :=
  s.porAsserted || s.control.mode == .startup || s.unanswered

/-- ERR: from an ERR answer to the end of that access, and for no other (R119). -/
def State.errPin (s : State) : Bool :=
  match s.host.access with
  | some ⟨_, .answered .err, _⟩ => true
  | _ => false

/-- HD7–HD0 as the part drives them: the byte of an answered read, released (`none`) otherwise
(R119). -/
def State.hostData (s : State) : Option Byte :=
  match s.host.access with
  | some ⟨_, .answered (.data b), _⟩ => some b
  | _ => none

/-- ALERT (R137); the status unit is reset while power-on reset is asserted. -/
def State.alertPin (s : State) : Bool := s.alert

/-- MCS#: low within a strobe alone (R103, Table 6-1). -/
def State.mcsPin (s : State) : Bool :=
  match s.port.access with
  | some ⟨_, _, .readStrobe _⟩ => false
  | some ⟨_, _, .writeStrobe _⟩ => false
  | _ => true

/-- MOE#: low within a read strobe (Table 6-1). -/
def State.moePin (s : State) : Bool :=
  match s.port.access with
  | some ⟨_, _, .readStrobe _⟩ => false
  | _ => true

/-- MWE#: low within a write strobe (Table 6-1). -/
def State.mwePin (s : State) : Bool :=
  match s.port.access with
  | some ⟨_, _, .writeStrobe _⟩ => false
  | _ => true

/-- MA19–MA0 while an access is in progress: the address of the request, without translation
(chapter 6). -/
def State.memoryAddress (s : State) : Option Addr := s.port.access.map fun a => a.op.addr

/-- MD7–MD0 as the port drives them: the byte of a write in progress, released otherwise
(R103, R110). -/
def State.memoryData (s : State) : Option Byte :=
  match s.port.access with
  | some ⟨_, .write _ b, _⟩ => some b
  | _ => none

end Sys2Proof.Machine
end

