-- ==== Sys2Proof/Machine/Dispatch.lean ====
section
/-! DEFINITION. One arm per command: each calls its meaning. -/

namespace Sys2Proof.Machine

open Sys2Proof

def exec (i : Instr) (s : State) : Host.Outcome State Fault Refusal :=
  match i with
  | .porAssert => Sys2Proof.Machine.execPorAssert s
  | .porRelease hreq rst mrdy vsen => Sys2Proof.Machine.execPorRelease hreq rst mrdy vsen s
  | .rstFalling => Sys2Proof.Machine.execRstFalling s
  | .rstRising => Sys2Proof.Machine.execRstRising s
  | .hreqRising => Sys2Proof.Machine.execHreqRising s
  | .hreqFalling => Sys2Proof.Machine.execHreqFalling s
  | .hostRead addr => Sys2Proof.Machine.execHostRead addr s
  | .statusByte0Read => Sys2Proof.Machine.execStatusByte0Read s
  | .statusByteRead offset => Sys2Proof.Machine.execStatusByteRead offset s
  | .hostWrite addr byte => Sys2Proof.Machine.execHostWrite addr byte s
  | .statusLineWrite offset byte => Sys2Proof.Machine.execStatusLineWrite offset byte s
  | .ackWrite byte => Sys2Proof.Machine.execAckWrite byte s
  | .fenceWrite byte => Sys2Proof.Machine.execFenceWrite byte s
  | .generationWrite byte => Sys2Proof.Machine.execGenerationWrite byte s
  | .hostAccessEnd line => Sys2Proof.Machine.execHostAccessEnd line s
  | .earlyRelease line => Sys2Proof.Machine.execEarlyRelease line s
  | .sample vsen => Sys2Proof.Machine.execSample vsen s
  | .queueEmptyReport => Sys2Proof.Machine.execQueueEmptyReport s
  | .stallExpiry => Sys2Proof.Machine.execStallExpiry s
  | .gapExpiry => Sys2Proof.Machine.execGapExpiry s
  | .retryPauseExpiry => Sys2Proof.Machine.execRetryPauseExpiry s
  | .rampStep => Sys2Proof.Machine.execRampStep s
  | .writeStrobeEnd mrdy => Sys2Proof.Machine.execWriteStrobeEnd mrdy s
  | .mrdyReady => Sys2Proof.Machine.execMrdyReady s
  | .writeTimeout => Sys2Proof.Machine.execWriteTimeout s
  | .readStrobeEnd => Sys2Proof.Machine.execReadStrobeEnd s

end Sys2Proof.Machine
end

