-- ==== Sys2Proof/WellFormed.lean ====
section
/-! DEFINITION. The well-formed commands: each operand within what its row of the opcode table names. -/

namespace Sys2Proof

/-- The highest VSEN the pin accepts, 3.6 V, in millivolts (0.4). -/
def vsenMax : Nat := 3600

/-- The addresses that have a row of their own as host writes: the status line, the ack byte, the
fence byte and the generation byte (Table 9-1). -/
def hasOwnWriteRow (addr : Addr) : Bool :=
  (0xFFF00#20 ≤ addr && addr ≤ 0xFFF0F#20) || addr == 0xFFF10#20 || addr == 0xFFF11#20 ||
    addr == 0xFFF22#20

/-- The check of one command. HOST_READ is a read outside the status line (R121), STATUS_BYTE_READ
names bytes 1 to 15 (R139), HOST_WRITE is a write to a byte without a row of its own (R32), and VSEN
is within the pin's range (0.4). -/
def Instr.wf : Instr → Bool
  | .porAssert => true
  | .porRelease _ _ _ vsen => vsen ≤ vsenMax
  | .rstFalling => true
  | .rstRising => true
  | .hreqRising => true
  | .hreqFalling => true
  | .hostRead addr => !(0xFFF00#20 ≤ addr && addr ≤ 0xFFF0F#20)
  | .statusByte0Read => true
  | .statusByteRead offset => offset != 0#4
  | .hostWrite addr _ => !hasOwnWriteRow addr
  | .statusLineWrite _ _ => true
  | .ackWrite _ => true
  | .fenceWrite _ => true
  | .generationWrite _ => true
  | .hostAccessEnd _ => true
  | .earlyRelease _ => true
  | .sample vsen => vsen ≤ vsenMax
  | .queueEmptyReport => true
  | .stallExpiry => true
  | .gapExpiry => true
  | .retryPauseExpiry => true
  | .rampStep => true
  | .writeStrobeEnd _ => true
  | .mrdyReady => true
  | .writeTimeout => true
  | .readStrobeEnd => true

end Sys2Proof
end

