-- ==== Sys2Proof/Safety.lean ====
section
/-! DEFINITION. What counts as a safe state and a safe run, in the terms the claims use: the invariants
that the manual's prose states of the whole part. -/

namespace Sys2Proof.Machine

open Sys2Proof

/-- The outcome is a next state. -/
def goesOn : Host.Outcome State Fault Refusal → Bool
  | .next _ => true
  | .fault _ => false
  | .refused _ => false

/-- A queue entry as R2 and Table 1-1 give it: a DATA entry has at least one present offset, each from
0 to 15 and none twice, and its line is never the status line. -/
abbrev Entry.wf (e : Entry) : Prop :=
  match e.body with
  | .data line bytes =>
    line ≠ statusLine ∧ bytes ≠ [] ∧ (bytes.map Prod.fst).Pairwise (· < ·) ∧
      ∀ c ∈ bytes, c.1 < 16
  | .fence _ => True

/-- The hold queue as R1, R2 and R4 give it: at most 32 entries, each well-formed, and none DRAINING but
the head. -/
abbrev queueWf (q : List Entry) : Prop :=
  q.length ≤ queueCapacity ∧ (∀ e ∈ q, e.wf) ∧ ∀ e ∈ q.tail, e.state = .pending

/-- The access in progress is a slot stall (Table 7-1). -/
def slotStalled (s : State) : Bool :=
  match s.host.access with
  | some ⟨_, .stalled (.slot _), _⟩ => true
  | _ => false

/-- A write in a slot stall is one the queue takes: not to the status line (R32, R40). -/
def slotStallQueueable (s : State) : Bool :=
  match s.host.access with
  | some ⟨op, .stalled (.slot _), _⟩ => !inStatusLine op.addr
  | _ => true

/-- The queue is well-formed and a slot-stalled write is one the queue takes (R1, R2, R4). -/
abbrev QueueInv (s : State) : Prop := queueWf s.queue ∧ slotStallQueueable s = true

/-- The modes in which the hold queue is empty: STARTUP and NORMAL (R6), and CLOSING (3.8). -/
def emptyMode : Mode → Bool
  | .startup | .normal | .closing => true
  | .entering | .hold | .drain => false

/-- The queue is empty in STARTUP, NORMAL and CLOSING (R6, 3.8), and holds 32 entries while a write is
stalled for a slot (R41). -/
abbrev OccupancyInv (s : State) : Prop :=
  (emptyMode s.control.mode = true → s.queue = []) ∧
    (slotStalled s = true → s.queue.length = queueCapacity)

/-- The ranges of the two filters of a configuration (R80). -/
abbrev Configuration.filtersInRange (c : Configuration) : Prop :=
  1 ≤ c.warnFilter ∧ c.warnFilter ≤ 4 ∧ 1 ≤ c.recoveryFilter ∧ c.recoveryFilter ≤ 15

/-- The monitor's runs as R69 gives them: each below the filter it is compared with, the warn run 0 while
WARNED, the recovery run 0 while GOOD; the filters are in the ranges of R80. -/
abbrev MonitorInv (s : State) : Prop :=
  s.config.filtersInRange ∧
    s.monitor.warnRun < s.config.warnFilter ∧ s.monitor.recoveryRun < s.config.recoveryFilter ∧
    (s.monitor.state = .warned → s.monitor.warnRun = 0) ∧
    (s.monitor.state = .good → s.monitor.recoveryRun = 0)

/-- The drain engine's ranges (R83): ramp level 0 to 7, attempt count 0 to 2. -/
abbrev EngineInv (s : State) : Prop := s.engine.rampLevel ≤ 7 ∧ s.engine.attempts ≤ 2

/-! ## Situations the claims are stated in -/

/-- The port is IDLE and no request waits (R103). -/
abbrev portQuiet (s : State) : Prop :=
  s.port.access = none ∧ s.port.waiting = ⟨none, none, none, none⟩

/-- The port right after a request is granted to it while it was quiet: the ready wait, or the strobe at
once where MRDY is high, with the timer at 2 ms (R106, R109, R110). -/
def quietGrant (s : State) (r : Requester) (op : BusOp) (marker : Marker) : MemoryPort where
  access := some ⟨r, op,
    if s.pins.mrdy then (if op.isRead then .readStrobe false else .writeStrobe false)
    else .readyWait⟩
  waiting := ⟨none, none, none, none⟩
  marker := marker
  timeout := some (s.now + 2000)

/-- The host can begin an access by lowering a strobe: the beginning condition of R118 but for the strobe,
with no cancelled access still running (R129). -/
abbrev hostReady (s : State) : Prop :=
  s.porAsserted = false ∧ s.host.rstHigh = true ∧ s.host.access = none ∧ s.host.orphan = false ∧
    s.pins.hoe = true ∧ s.pins.hwe = true

/-- The pins after the host selects the part and lowers HOE# with an address. -/
def readPins (p : Pins) (a : Addr) : Pins := { p with hcs := false, hoe := false, ha := a }

/-- The pins after the host selects the part and lowers HWE# with an address and a byte. -/
def writePins (p : Pins) (a : Addr) (b : Byte) : Pins :=
  { p with hcs := false, hwe := false, ha := a, hd := b }

/-- The host port with an access at a stage, nothing else of it changed. -/
def hostAt (h : HostPort) (op : BusOp) (st : Stage) : HostPort :=
  { h with access := some ⟨op, st, false⟩ }

/-- The status unit after an ERR answer to a host write: the rejected count and WRITE_REJECTED
(R44, R45). -/
def rejectedStatus (u : StatusUnit) : StatusUnit :=
  { u with
    rejected := if u.rejected = 0xFF#8 then 0xFF#8 else u.rejected + 1#8
    causes := u.causes ||| 0x08#8 }

/-- A mode in which the part holds writes in its queue (Table 1-2). -/
def queueingMode : Mode → Bool
  | .entering | .hold | .drain => true
  | .startup | .normal | .closing => false

/-- What the host port and the memory port share. A host read is never stalled and never answered ERR
(R119). A HOST request that waits, or a HOST access that runs with its host, is the request of the access
in progress, which is ON_PORT; not both at once (R104, R117). -/
abbrev HostPortInv (s : State) : Prop :=
  (∀ acc, s.host.access = some acc → acc.op.isRead = true →
    acc.stage ≠ .answered .err ∧ ∀ k, acc.stage ≠ .stalled k) ∧
  (∀ op, s.port.waiting.host = some op → s.host.orphan = false ∧
    (∃ rel, s.host.access = some ⟨op, .onPort, rel⟩) ∧
    ∀ o ph, s.port.access ≠ some ⟨.host, o, ph⟩) ∧
  (∀ op ph, s.port.access = some ⟨.host, op, ph⟩ → s.host.orphan = false →
    ∃ rel, s.host.access = some ⟨op, .onPort, rel⟩)

/-! ## What the queue makes of a write -/

/-- The merge target of a line, between the older and the younger entries, as it takes a merge: it is the
youngest DATA entry of the line, it is PENDING, and no FENCE entry is younger (R11). -/
abbrev mergeTarget (q : List Entry) (line : Line) (older : List Entry) (bytes : List Host.Cell)
    (younger : List Entry) : Prop :=
  q = older ++ ⟨.data line bytes, .pending⟩ :: younger ∧
    ∀ e ∈ younger, (∀ bs, e.body ≠ .data line bs) ∧ ∀ tag, e.body ≠ .fence tag

/-- A merge target of the line qualifies (R11). -/
abbrev mergeable (q : List Entry) (line : Line) : Prop :=
  ∃ older bytes younger, mergeTarget q line older bytes younger

/-- The queue takes a write request: it merges exactly where merging is allowed and a target qualifies,
and otherwise it appends. A merge sets the byte of its offset in the target and nothing else. The
overlay then supplies the byte, and no other address reads otherwise (R7, R8, R11, R12). -/
abbrev queueTakes (q : List Entry) (a : Addr) (b : Byte) (merge : Bool) (q' : List Entry)
    (merged : Bool) : Prop :=
  (merged = true ↔ merge = true ∧ mergeable q (lineOf a)) ∧
    (merged = true → ∃ older bytes bytes' younger, mergeTarget q (lineOf a) older bytes younger ∧
      q' = older ++ ⟨.data (lineOf a) bytes', .pending⟩ :: younger ∧
      ∀ o, cellGet bytes' o = if o = offsetOf a then some b else cellGet bytes o) ∧
    (merged = false → q' = q ++ [⟨.data (lineOf a) [(offsetOf a, b)], .pending⟩]) ∧
    overlay q' a = some b ∧ (∀ a', a' ≠ a → overlay q' a' = overlay q a') ∧
    q'.length = q.length + (if merged then 0 else 1)

/-- The queue does not answer NO_SLOT: a slot is free, or the write merges (R9). -/
abbrev queueRoom (q : List Entry) (a : Addr) (merge : Bool) : Prop :=
  q.length < 32 ∨ (merge = true ∧ mergeable q (lineOf a))

/-- What the decision of a write outside the status line leaves, taken in ENTERING or HOLD with no entry
held, for an access that the host still waits on: queued, discarded, or stalled from then on
(Tables 2-2 and 2-3, R40). `s` is the state before it, `t` the one after. -/
abbrev decidedHeld (s t : State) (a : Addr) (b : Byte) : Prop :=
  let p : Policy := if inWindow a then .defer else (s.config.lookup (lineOf a)).1
  (p = .defer →
    t.queue = [⟨if a = 0xFFF11#20 then .fence b else .data (lineOf a) [(offsetOf a, b)], .pending⟩] ∧
      t.host.access = some ⟨.write a b, .answered .done, false⟩ ∧
      t.status.deferred = s.status.deferred + 1#16) ∧
    (p = .discard → t.queue = [] ∧ t.host.access = some ⟨.write a b, .answered .done, false⟩ ∧
      t.status.discarded = (if s.status.discarded = 0xFF#8 then 0xFF#8
        else s.status.discarded + 1#8)) ∧
    (p = .block → t.queue = [] ∧
      (s.config.stallLimit ≠ 0#8 →
        t.host.access = some ⟨.write a b, .stalled .block, false⟩ ∧
        t.host.stallTimer = some (t.now + 64 * s.config.stallLimit.toNat)) ∧
      (s.config.stallLimit = 0#8 → t.host.access = some ⟨.write a b, .answered .err, false⟩ ∧
        t.status.rejected = (rejectedStatus s.status).rejected))

/-- The write that a claim of this entry requests: its lowest present offset, or the tag at FFF11H
(R15, R86). -/
abbrev headWrite (e : Entry) (w : DrainWrite) : Prop :=
  match e.body with
  | .data line bytes => ∃ o b more, bytes = (o, b) :: more ∧
      w = ⟨false, line ++ BitVec.ofNat 4 o, b⟩
  | .fence tag => w = ⟨true, 0xFFF11#20, tag⟩

/-- The memory and the count of free values after a write to `a` faulted in this phase: a neighbour may be
unknown unless the fault came in the ready wait, and every other byte is as it was (R111; logs 6, 9). -/
abbrev faultLeaves (s : State) (a : Addr) (ph : Phase) (m : Memory) (n : Nat) : Prop :=
  (ph = .readyWait → m = s.memory ∧ n = s.freeIndex) ∧
    (∀ a', ¬ neighbours a a' → memRead m a' = memRead s.memory a') ∧
    ∀ a', memRead m a' = memRead s.memory a' ∨ memRead m a' = none

end Sys2Proof.Machine
end

