-- ==== Sys2Proof/Certificates/Slice0/Obligations.lean ====
section
/-! DEFINITION. The statements for the provers. Each docstring names the rules of spec/ it rests on, or
says that it is the model's choice and names the log entry. -/

section Obligations

open Sys2Proof Sys2Proof.Machine

/-! ## The step and the commands as a whole -/

/-- A step takes the command at the front of the queue of waiting commands and runs it with the rest of
that queue (spec/95: each event is one whole and indivisible step). The queue of commands is the model's
(log 24). -/
def Obligations.StepRunsFrontCommand : Prop :=
  ∀ (c : Instr) (rest : List Instr) (s : State),
    step { s with pending := c :: rest } = exec c { s with pending := rest }

/-- Every command of the table completes in every state, leaves the commands that wait as they are, and
only POR_ASSERT and POR_RELEASE move the power-on reset. What a command without its object does is the
model's choice (log 4). -/
def Obligations.EveryCommandCompletes : Prop :=
  ∀ (c : Instr) (s : State), ∃ t, exec c s = .next t ∧ t.pending = s.pending ∧
    (t.porAsserted ≠ s.porAsserted →
      c = .porAssert ∨ ∃ hreq rst mrdy vsen, c = .porRelease hreq rst mrdy vsen)

/-- No host access, no port reset and none of the drain engine's own timers changes anything of the mode
controller (R46 to R48, R57, R66: the events that change the mode). -/
def Obligations.OnlyModeEventsMoveTheMode : Prop :=
  ∀ (c : Instr) (s t : State), exec c s = .next t → t.control ≠ s.control →
    c = .porAssert ∨ (∃ hreq rst mrdy vsen, c = .porRelease hreq rst mrdy vsen) ∨
      c = .hreqRising ∨ c = .hreqFalling ∨ (∃ vsen, c = .sample vsen) ∨ c = .queueEmptyReport ∨
      (∃ acc, s.port.access = some acc ∧
        (c = .mrdyReady ∨ c = .writeTimeout ∨ c = .readStrobeEnd ∨ ∃ m, c = .writeStrobeEnd m))

/-! ## Invariants that every step keeps -/

/-- The state with power-on reset asserted meets every invariant stated here. That State.reset is this
state is the model's choice (logs 1, 2, 19). -/
def Obligations.ResetMeetsInvariants : Prop :=
  State.reset.memory.wf ∧ QueueInv State.reset ∧ OccupancyInv State.reset ∧
    MonitorInv State.reset ∧ EngineInv State.reset ∧ HostPortInv State.reset

/-- Every step keeps the memory in its canonical form. The form is the model's choice (logs 1, 6). -/
def Obligations.MemoryStaysCanonical : Prop :=
  ∀ s t : State, s.memory.wf → step s = .next t → t.memory.wf

/-- Every step keeps the hold queue as R1, R2 and R4 give it: at most 32 entries, each with a present
offset and off the status line, and none DRAINING but the head. -/
def Obligations.QueueStaysWellFormed : Prop :=
  ∀ s t : State, QueueInv s → step s = .next t → QueueInv t

/-- Every step keeps the queue empty in STARTUP, NORMAL and CLOSING (R6, R65) and full while a write is
stalled for a slot (R41). HostPortInv says that a host read is never stalled. -/
def Obligations.QueueFollowsMode : Prop :=
  ∀ s t : State, QueueInv s → HostPortInv s → OccupancyInv s → step s = .next t → OccupancyInv t

/-- Every step keeps a host read free of stalls and of an ERR answer, and the port's HOST request the
request of the access in progress (R117, R119). -/
def Obligations.ReadIsNeverAnsweredErr : Prop :=
  ∀ s t : State, HostPortInv s → step s = .next t → HostPortInv t

/-- Every step keeps the ramp level within 0 to 7 and the attempt count within 0 to 2 (R83), the filters
in their ranges, and each run of the monitor below its filter, the run that the monitor state does not
use at 0 (R69, R73, R75, R80). Before the first apply the default configuration stands in (log 20). -/
def Obligations.CountersStayInRange : Prop :=
  ∀ s t : State, step s = .next t → (EngineInv s → EngineInv t) ∧ (MonitorInv s → MonitorInv t)

/-- The memory port starts no write while the mode is HOLD, and in ENTERING only the status writer's: a
write in progress after a step that ends in HOLD, or another requester's in ENTERING, was in progress
before it (R108, R112). -/
def Obligations.NoWriteStartsInHold : Prop :=
  ∀ (s t : State) (acc : PortAccess), step s = .next t → t.port.access = some acc →
    acc.op.isRead = false →
    t.control.mode = .hold ∨ (t.control.mode = .entering ∧ acc.requester ≠ .status) →
    ∃ p, s.port.access = some { acc with phase := p }

/-- The memory's byte at an address changes only at a step that ends or runs the strobe of a write to
that address, or becomes unknown next to a write that was in progress past its ready wait (R111, R114).
That the byte is unknown from the strobe on, and which bytes are neighbours, are the model's reading
(logs 6, 9). -/
def Obligations.MemoryChangesOnlyAtItsWrite : Prop :=
  ∀ (s t : State) (a : Addr), step s = .next t → memRead t.memory a ≠ memRead s.memory a →
    ∃ acc a' b, acc.op = .write a' b ∧
      ((a' = a ∧ (s.port.access = some acc ∨ t.port.access = some acc)) ∨
        (neighbours a' a ∧ s.port.access = some acc ∧ acc.phase ≠ .readyWait ∧
          memRead t.memory a = none))

/-- The saturating counts never fall but at a power-on reset (R133). -/
def Obligations.SaturatingCountsNeverFall : Prop :=
  ∀ (c : Instr) (s t : State), exec c s = .next t → c ≠ .porAssert →
    (∀ hreq rst mrdy vsen, c ≠ .porRelease hreq rst mrdy vsen) →
    s.status.rejected ≤ t.status.rejected ∧ s.status.discarded ≤ t.status.discarded ∧
      s.status.dropped ≤ t.status.dropped

/-! ## Power-on reset -/

/-- POR_ASSERT empties the hold queue: every slot is free, no entry is DRAINING, and the status shadow
shows an occupancy and a fence count of 0 (R27). -/
def Obligations.PowerOnResetEmptiesQueue : Prop :=
  ∀ s : State, ∃ t, exec .porAssert s = .next t ∧ t.queue = [] ∧
    queueCapacity - t.queue.length = 32 ∧ (∀ e ∈ t.queue, e.state ≠ .draining) ∧
    t.shadow.occupancy = 0 ∧ t.shadow.fences = 0 ∧
    t.shadow.byte 3#4 = 0#8 ∧ t.shadow.byte 4#4 = 0#8

/-- POR_ASSERT puts every block at the power-on reset values the spec gives, and the pins are the board's.
The memory keeps every byte but perhaps, where a write was in its busy watch, a neighbour of its
address, which may be unknown then; the snapshot latch is not valid and keeps its bytes (R46, R69, R84,
R116, R132, R134, R139, R142, R154, R170, R111; logs 6, 9). -/
def Obligations.PowerOnResetValues : Prop :=
  ∀ s : State, ∃ t, exec .porAssert s = .next t ∧ t.porAsserted = true ∧
    t.control.mode = .startup ∧ t.control.reason = .auto ∧ t.control.awaited = none ∧
    t.host.access = none ∧ t.host.stallTimer = none ∧
    t.monitor.state = .good ∧ t.monitor.warnRun = 0 ∧ t.monitor.recoveryRun = 0 ∧
    t.monitor.timer = none ∧
    t.engine.state = .stopped ∧ t.engine.rampLevel = 7 ∧ t.engine.rampTimer = none ∧
    t.engine.gapTimer = none ∧ t.engine.retryTimer = none ∧ t.engine.attempts = 0 ∧
    t.engine.awaited = .nothing ∧ t.engine.lastClass = .good ∧ t.engine.openLoss = false ∧
    portQuiet t ∧ t.port.marker = .host ∧ t.port.timeout = none ∧
    t.shadow = Shadow.reset ∧ t.status.snapshotValid = false ∧
    t.status.snapshot = s.status.snapshot ∧
    t.writer.state = .idle ∧ t.writer.abandoned = false ∧ t.writer.pending = false ∧
    t.writer.record = .empty ∧
    t.descriptor.applied = none ∧ t.descriptor.generation = 0#8 ∧ t.descriptor.reading = false ∧
    t.descriptor.held = none ∧
    t.waitPin = true ∧ t.errPin = false ∧ t.heldPin = false ∧ t.alertPin = false ∧
    t.pins = s.pins ∧
    (∀ a, (∀ r a' b, s.port.access = some ⟨r, .write a' b, .busyWatch⟩ → ¬ neighbours a' a) →
      memRead t.memory a = memRead s.memory a) ∧
    ∀ a, memRead t.memory a = memRead s.memory a ∨ memRead t.memory a = none

/-- POR_RELEASE with no strobe held by the host starts the start-up sequencer: STARTUP, the recorded HREQ
and RST# levels from their pins, and the LOAD read of FFF00H granted (R161, R162, R46, R131). The
operands as pin levels and the clock are the model's (logs 3, 12, 13). -/
def Obligations.PowerOnReleaseStartsSequencer : Prop :=
  ∀ (s : State) (hreq rst mrdy : Bool) (vsen : Nat), s.porAsserted = true → s.pins.hcs = true →
    ∃ t, exec (.porRelease hreq rst mrdy vsen) s = .next t ∧ t.porAsserted = false ∧
      t.control = ⟨.startup, .auto, hreq, none⟩ ∧ t.sequencer = ⟨.statusRead, []⟩ ∧
      t.host = ⟨none, none, rst, false⟩ ∧ t.queue = [] ∧ t.monitor.timer = none ∧
      t.port = ⟨some ⟨.load, .read 0xFFF00#20, if mrdy then .readStrobe false else .readyWait⟩,
        ⟨none, none, none, none⟩, .host, some (s.now + 2000)⟩ ∧
      t.waitPin = true ∧ t.heldPin = false ∧ t.descriptor.applied = none ∧
      t.pins = { s.pins with hreq := hreq, rst := rst, mrdy := mrdy, vsen := vsen } ∧
      t.memory = s.memory

/-! ## Port reset -/

/-- RST_FALLING ends the access in progress by its stage, withdraws a request that is not granted, lets a
granted access run on, and invalidates the snapshot; everything else stays (R128, R43, R139). -/
def Obligations.RstFallingEndsAccess : Prop :=
  ∀ s : State, s.porAsserted = false →
    ((∀ op rel, s.host.access ≠ some ⟨op, .onPort, rel⟩) →
      exec .rstFalling s = .next { s with
        pins := { s.pins with rst := false }
        host := ⟨none, none, false, s.host.orphan⟩
        status := { s.status with snapshotValid := false } }) ∧
    (∀ op rel, s.host.access = some ⟨op, .onPort, rel⟩ →
      (s.port.waiting.host ≠ none ∨ s.host.orphan = true →
        exec .rstFalling s = .next { s with
          pins := { s.pins with rst := false }
          host := ⟨none, none, false, s.host.orphan⟩
          port := { s.port with waiting := { s.port.waiting with host := none } }
          status := { s.status with snapshotValid := false } }) ∧
      (s.port.waiting.host = none → s.host.orphan = false →
        exec .rstFalling s = .next { s with
          pins := { s.pins with rst := false }
          host := ⟨none, none, false, true⟩
          status := { s.status with snapshotValid := false } }))

/-- RST_RISING records the level; no access begins unless HCS# and exactly one strobe are low. Then one
begins with the address and the byte the bus carries, and it goes as the HOST_READ or HOST_WRITE command
of that address and byte goes with RST# high, by the region and the mode. A read that a held byte answers
is answered at once. A read that misses makes its HOST request, or with a cancelled access still running
has it held back (R129, R118, R121). Instants are on the model's clock (log 3). -/
def Obligations.RstRisingReopensPort : Prop :=
  ∀ s : State, s.porAsserted = false → s.host.access = none →
    (s.pins.hcs = true ∨ s.pins.hoe = s.pins.hwe →
      exec .rstRising s = .next { s with
        pins := { s.pins with rst := true }
        host := { s.host with rstHigh := true } }) ∧
    (s.pins.hcs = false → s.pins.hoe = true → s.pins.hwe = false →
      exec .rstRising s = exec (.hostWrite s.pins.ha s.pins.hd) { s with
        pins := { s.pins with rst := true, hwe := true }
        host := { s.host with rstHigh := true } }) ∧
    (s.pins.hcs = false → s.pins.hoe = false → s.pins.hwe = true →
      let begun (st : Stage) : State := { s with
        pins := { s.pins with rst := true }
        host := { s.host with rstHigh := true, access := some ⟨.read s.pins.ha, st, false⟩ } }
      exec .rstRising s = exec (.hostRead s.pins.ha) { s with
        pins := { s.pins with rst := true, hoe := true }
        host := { s.host with rstHigh := true } } ∧
      (s.control.mode = .startup → exec .rstRising s = .next (begun (.waiting .startUp))) ∧
      (s.control.mode ≠ .startup → inStatusLine s.pins.ha = false →
        (∀ b, overlay s.queue s.pins.ha = some b →
          exec .rstRising s = .next (begun (.answered (.data b)))) ∧
        (overlay s.queue s.pins.ha = none → s.host.orphan = true →
          exec .rstRising s = .next (begun .onPort)) ∧
        (overlay s.queue s.pins.ha = none → s.host.orphan = false → portQuiet s →
          exec .rstRising s = .next { begun .onPort with
            port := quietGrant s .host (.read s.pins.ha) .host })))

/-! ## Host reads -/

/-- HOST_READ outside the status line: in every mode but STARTUP an address the queue holds is answered
at once with the current holder's byte, and one it does not hold makes a HOST read request, granted at
once on a quiet port; in STARTUP the read takes a START_UP wait (R121, R23, R106, R108, R131). Instants
are on the model's clock (log 3). -/
def Obligations.HostReadRoutes : Prop :=
  ∀ (s : State) (a : Addr), hostReady s → inStatusLine a = false →
    (∀ b, s.control.mode ≠ .startup → overlay s.queue a = some b →
      exec (.hostRead a) s = .next { s with
        pins := readPins s.pins a
        host := hostAt s.host (.read a) (.answered (.data b)) }) ∧
    (s.control.mode ≠ .startup → overlay s.queue a = none → portQuiet s →
      exec (.hostRead a) s = .next { s with
        pins := readPins s.pins a
        host := hostAt s.host (.read a) .onPort
        port := quietGrant s .host (.read a) .host }) ∧
    (s.control.mode = .startup →
      exec (.hostRead a) s = .next { s with
        pins := readPins s.pins a
        host := hostAt s.host (.read a) (.waiting .startUp) })

/-- STATUS_BYTE_0_READ takes a snapshot of every field of the shadow, marks it valid and answers with byte
0 of it; a copy's bytes sum to 00H, and nothing but the latch and the host's answer changes.
STATUS_BYTE_READ of byte 1 to 15 is answered from the snapshot, which it leaves as it is when it is valid
and takes first when it is not. In STARTUP either read waits (R138, R139, R121, R131). -/
def Obligations.StatusReadsUseSnapshot : Prop :=
  ∀ s : State, hostReady s →
    (s.control.mode ≠ .startup →
      exec .statusByte0Read s = .next { s with
        pins := readPins s.pins 0xFFF00#20
        host := hostAt s.host (.read 0xFFF00#20) (.answered (.data (s.shadow.byte 0#4)))
        status := { s.status with snapshot := s.shadow, snapshotValid := true } }) ∧
    (s.control.mode = .startup →
      exec .statusByte0Read s = .next { s with
        pins := readPins s.pins 0xFFF00#20
        host := hostAt s.host (.read 0xFFF00#20) (.waiting .startUp) }) ∧
    s.shadow.bytes.length = 16 ∧ ((s.shadow.bytes.map BitVec.toNat).sum) % 256 = 0 ∧
    ∀ n : Offset, n ≠ 0#4 →
      (s.control.mode = .startup →
        exec (.statusByteRead n) s = .next { s with
          pins := readPins s.pins (0xFFF0#16 ++ n)
          host := hostAt s.host (.read (0xFFF0#16 ++ n)) (.waiting .startUp) }) ∧
      (s.control.mode ≠ .startup → s.status.snapshotValid = true →
        exec (.statusByteRead n) s = .next { s with
          pins := readPins s.pins (0xFFF0#16 ++ n)
          host := hostAt s.host (.read (0xFFF0#16 ++ n))
            (.answered (.data (s.status.snapshot.byte n))) }) ∧
      (s.control.mode ≠ .startup → s.status.snapshotValid = false →
        exec (.statusByteRead n) s = .next { s with
          pins := readPins s.pins (0xFFF0#16 ++ n)
          host := hostAt s.host (.read (0xFFF0#16 ++ n)) (.answered (.data (s.shadow.byte n)))
          status := { s.status with snapshot := s.shadow, snapshotValid := true } })

/-! ## Host writes -/

/-- A write that is refused, to a READONLY region or to the status line, is answered ERR at once in every
mode but STARTUP, with the rejected count and WRITE_REJECTED; no memory byte and no entry changes
(R33, R37, R44, R45). -/
def Obligations.RefusedWriteIsAnsweredErr : Prop :=
  ∀ (s : State) (b : Byte), hostReady s → s.control.mode ≠ .startup →
    s.descriptor.reading = false →
    (∀ n : Offset, exec (.statusLineWrite n b) s = .next { s with
      pins := writePins s.pins (0xFFF0#16 ++ n) b
      host := hostAt s.host (.write (0xFFF0#16 ++ n) b) (.answered .err)
      status := rejectedStatus s.status }) ∧
    (∀ a : Addr, inWindow a = false → (s.config.lookup (lineOf a)).1 = .readonly →
      exec (.hostWrite a b) s = .next { s with
        pins := writePins s.pins a b
        host := hostAt s.host (.write a b) (.answered .err)
        status := rejectedStatus s.status })

/-- In NORMAL a write that passes through becomes a HOST write request, granted at once on an IDLE port: a
write outside the window whose policy is not READONLY, the fence byte, the generation byte, every other
window byte off the status line, and the ack byte, whose causes are cleared at its beginning (R34 to R36,
R31, R125, R126, R136, R110). From the strobe on the byte is unknown (log 6); instants are on the model's
clock (log 3). -/
def Obligations.WritePassesThroughInNormal : Prop :=
  ∀ (s : State) (b : Byte), hostReady s → s.control.mode = .normal →
    s.descriptor.reading = false → portQuiet s →
    let passed (a : Addr) (m : Memory) (causes : Byte) : State := { s with
      pins := writePins s.pins a b
      host := hostAt s.host (.write a b) .onPort
      port := quietGrant s .host (.write a b) .host
      status := { s.status with causes := causes }
      memory := m }
    let frame (a : Addr) (m : Memory) : Prop :=
      ∀ a', (a' ≠ a ∨ s.pins.mrdy = false) → memRead m a' = memRead s.memory a'
    (∀ a : Addr,
      (inWindow a = false ∧ (s.config.lookup (lineOf a)).1 ≠ .readonly) ∨
        (inWindow a = true ∧ inStatusLine a = false ∧ a ≠ 0xFFF10#20) →
      ∃ m, exec (.hostWrite a b) s = .next (passed a m s.status.causes) ∧ frame a m) ∧
    (∃ m, exec (.ackWrite b) s = .next (passed 0xFFF10#20 m (s.status.causes &&& ~~~b)) ∧
      frame 0xFFF10#20 m) ∧
    (∃ m, exec (.fenceWrite b) s = .next (passed 0xFFF11#20 m s.status.causes) ∧
      frame 0xFFF11#20 m) ∧
    (∃ m, exec (.generationWrite b) s = .next (passed 0xFFF22#20 m s.status.causes) ∧
      frame 0xFFF22#20 m)

/-- In ENTERING and HOLD, and in DRAIN with the engine not in EMPTY_WAIT, a DEFER write, or in DRAIN a
DISCARD write, that finds a slot or merges is held: it merges into its line's target where its region
allows merging and a target qualifies, and otherwise it is appended; the overlay supplies its byte, and
no other address reads otherwise. The host is answered done with the deferred notice, and the merged
notice exactly for a merge. Appended to an empty queue in EMPTY_WAIT, the write is claimed at once (R7,
R8, R11, R12, R34, R36, R44, R93). Instants are on the model's clock (log 3). -/
def Obligations.HeldWriteShadowsMemory : Prop :=
  ∀ (s : State) (a : Addr) (b : Byte), hostReady s → queueingMode s.control.mode = true →
    s.descriptor.reading = false → inWindow a = false →
    (s.config.lookup (lineOf a)).1 = .defer ∨
      ((s.config.lookup (lineOf a)).1 = .discard ∧ s.control.mode = .drain) →
    (s.engine.state = .emptyWait → s.queue = [] → s.control.mode = .drain → portQuiet s →
      ∃ m, exec (.hostWrite a b) s = .next { s with
          pins := writePins s.pins a b
          host := hostAt s.host (.write a b) (.answered .done)
          queue := [⟨.data (lineOf a) [(offsetOf a, b)], .draining⟩]
          engine := { s.engine with state := .writing, outstanding := some ⟨false, a, b⟩ }
          port := quietGrant s .drain (.write a b) .drain
          status := { s.status with deferred := s.status.deferred + 1#16 }
          memory := m } ∧
        ∀ a', a' ≠ a ∨ s.pins.mrdy = false → memRead m a' = memRead s.memory a') ∧
    (s.engine.state ≠ .emptyWait → queueRoom s.queue a (s.config.lookup (lineOf a)).2 →
      ∃ (q : List Entry) (merged : Bool), exec (.hostWrite a b) s = .next { s with
        pins := writePins s.pins a b
        host := hostAt s.host (.write a b) (.answered .done)
        queue := q
        status := { s.status with
          deferred := s.status.deferred + 1#16
          merged := if merged then s.status.merged + 1#16 else s.status.merged } } ∧
      queueTakes s.queue a b (s.config.lookup (lineOf a)).2 q merged)

/-- In ENTERING and HOLD, and in DRAIN with the engine not in EMPTY_WAIT, every window byte off the status
line is queued. FENCE_WRITE appends a FENCE entry with the byte as its tag and never merges. ACK_WRITE
clears the named causes at its beginning; it and every other window byte merge where a target qualifies
and are appended where none does, GENERATION_WRITE of the applied generation among them. Appended to an
empty queue in EMPTY_WAIT, the byte or the tag is claimed at once (R13, R11, R12, R126, R136, R155, R31,
R93). Instants are on the model's clock (log 3). -/
def Obligations.HeldWindowWrites : Prop :=
  ∀ (s : State) (b : Byte), hostReady s → queueingMode s.control.mode = true →
    s.descriptor.reading = false →
    let held (a : Addr) (q : List Entry) (causes : Byte) (merged : Bool) : State := { s with
      pins := writePins s.pins a b
      host := hostAt s.host (.write a b) (.answered .done)
      queue := q
      status := { s.status with
        causes := causes
        deferred := s.status.deferred + 1#16
        merged := if merged then s.status.merged + 1#16 else s.status.merged } }
    let claimed (a : Addr) (e : EntryBody) (causes : Byte) (m : Memory) : State := { s with
      pins := writePins s.pins a b
      host := hostAt s.host (.write a b) (.answered .done)
      queue := [⟨e, .draining⟩]
      engine := { s.engine with
        state := .writing, outstanding := some ⟨decide (a = 0xFFF11#20), a, b⟩ }
      port := quietGrant s .drain (.write a b) .drain
      status := { s.status with causes := causes, deferred := s.status.deferred + 1#16 }
      memory := m }
    let acked : Byte := s.status.causes &&& ~~~b
    let other (a : Addr) (c : Instr) : Prop := inWindow a = true ∧ inStatusLine a = false ∧
      a ≠ 0xFFF10#20 ∧ a ≠ 0xFFF11#20 ∧
      (a ≠ 0xFFF22#20 ∧ c = .hostWrite a b ∨
        a = 0xFFF22#20 ∧ b = s.descriptor.generation ∧ c = .generationWrite b)
    (s.engine.state ≠ .emptyWait →
      (s.queue.length < 32 → exec (.fenceWrite b) s = .next
        (held 0xFFF11#20 (s.queue ++ [⟨.fence b, .pending⟩]) s.status.causes false)) ∧
      (queueRoom s.queue 0xFFF10#20 true → ∃ (q : List Entry) (merged : Bool),
        exec (.ackWrite b) s = .next (held 0xFFF10#20 q acked merged) ∧
        queueTakes s.queue 0xFFF10#20 b true q merged) ∧
      (∀ a c, other a c → queueRoom s.queue a true → ∃ (q : List Entry) (merged : Bool),
        exec c s = .next (held a q s.status.causes merged) ∧
        queueTakes s.queue a b true q merged)) ∧
    (s.engine.state = .emptyWait → s.queue = [] → s.control.mode = .drain → portQuiet s →
      let frame (a : Addr) (m : Memory) : Prop :=
        ∀ a', a' ≠ a ∨ s.pins.mrdy = false → memRead m a' = memRead s.memory a'
      (∃ m, exec (.fenceWrite b) s = .next
        (claimed 0xFFF11#20 (.fence b) s.status.causes m) ∧ frame 0xFFF11#20 m) ∧
      (∃ m, exec (.ackWrite b) s = .next
        (claimed 0xFFF10#20 (.data 0xFFF1#16 [(0, b)]) acked m) ∧ frame 0xFFF10#20 m) ∧
      (∀ a c, other a c → ∃ m, exec c s = .next
        (claimed a (.data (lineOf a) [(offsetOf a, b)]) s.status.causes m) ∧ frame a m))

/-- In HOLD, ENTERING and DRAIN a generation byte that differs from the applied generation is queued and
starts a reload at index 0. The bytes that the queue holds are taken at once; the first it does not hold
is a LOAD read, granted at once on an IDLE port; with all 49 held the descriptor is applied or rejected
in the same step (R155, R157, R158, R159, R160). In DRAIN with the engine in EMPTY_WAIT the byte is
claimed at once too, and of the DRAIN and LOAD requests either may be taken first: the other waits
(R93, R104; log 31). Instants are on the model's clock (log 3). -/
def Obligations.HeldGenerationWriteStartsReload : Prop :=
  ∀ (s : State) (b : Byte), hostReady s → queueingMode s.control.mode = true →
    s.descriptor.reading = false → portQuiet s → b ≠ s.descriptor.generation →
    (s.engine.state ≠ .emptyWait → queueRoom s.queue 0xFFF22#20 true →
      ∃ (q : List Entry) (merged : Bool), queueTakes s.queue 0xFFF22#20 b true q merged ∧
        let u : State := { s with
          pins := writePins s.pins 0xFFF22#20 b
          host := hostAt s.host (.write 0xFFF22#20 b) (.answered .done)
          queue := q
          status := { s.status with
            deferred := s.status.deferred + 1#16
            merged := if merged then s.status.merged + 1#16 else s.status.merged } }
        ∀ bs : List Byte,
          (∀ i < bs.length, overlay q (0xFFF20#20 + BitVec.ofNat 20 i) = some (bs.getD i 0#8)) →
          (bs.length < 49 → overlay q (0xFFF20#20 + BitVec.ofNat 20 bs.length) = none →
            exec (.generationWrite b) s = .next { u with
              descriptor := { s.descriptor with reading := true, bytes := bs }
              port := quietGrant s .load (.read (0xFFF20#20 + BitVec.ofNat 20 bs.length))
                s.port.marker }) ∧
          (bs.length = 49 → s.descriptor.held = none → descriptorValid bs = true →
            exec (.generationWrite b) s = .next { u with
              descriptor := ⟨some (descriptorConfig bs), b, false, bs, none⟩
              monitor := { s.monitor with warnRun := 0, recoveryRun := 0 } }) ∧
          (bs.length = 49 → s.descriptor.held = none → descriptorValid bs = false →
            exec (.generationWrite b) s = .next { u with
              descriptor := { s.descriptor with bytes := bs }
              status := { u.status with causes := s.status.causes ||| 0x80#8 } })) ∧
    (s.engine.state = .emptyWait → s.queue = [] → s.control.mode = .drain →
      ∃ (p : MemoryPort) (m : Memory) (n : Nat), exec (.generationWrite b) s = .next { s with
          pins := writePins s.pins 0xFFF22#20 b
          host := hostAt s.host (.write 0xFFF22#20 b) (.answered .done)
          queue := [⟨.data 0xFFF2#16 [(2, b)], .draining⟩]
          engine := { s.engine with
            state := .writing, outstanding := some ⟨false, 0xFFF22#20, b⟩ }
          status := { s.status with deferred := s.status.deferred + 1#16 }
          descriptor := { s.descriptor with reading := true, bytes := [] }
          port := p
          memory := m
          freeIndex := n } ∧
        (p = { quietGrant s .drain (.write 0xFFF22#20 b) .drain with
            waiting := ⟨none, some (.read 0xFFF20#20), none, none⟩ } ∧
          (∀ a, a ≠ 0xFFF22#20 ∨ s.pins.mrdy = false → memRead m a = memRead s.memory a) ∨
        p = { quietGrant s .load (.read 0xFFF20#20) s.port.marker with
            waiting := ⟨none, none, none, some (.write 0xFFF22#20 b)⟩ } ∧ m = s.memory))

/-- A write to be queued that finds 32 entries held, of a DEFER line, in DRAIN of a DISCARD line, or of any
window byte off the status line. Where it merges it is taken as ever. Where it does not, and a fence byte
never does, it sends QUEUE_FULL and stalls for a slot under the stall timer, or with a stall limit of 0
is answered ERR at once, the queue left as it was. An ack byte has cleared its causes first (R7, R9, R13,
R31, R40, R45, R126). Instants are on the model's clock (log 3). -/
def Obligations.FullQueueStallsWrite : Prop :=
  ∀ (s : State) (a : Addr) (b : Byte) (c : Instr), hostReady s →
    queueingMode s.control.mode = true → s.descriptor.reading = false → s.queue.length = 32 →
    (c = .hostWrite a b ∨ c = .ackWrite b ∧ a = 0xFFF10#20 ∨ c = .fenceWrite b ∧ a = 0xFFF11#20 ∨
      c = .generationWrite b ∧ a = 0xFFF22#20) →
    (inWindow a = true ∧ inStatusLine a = false) ∨ (inWindow a = false ∧
      ((s.config.lookup (lineOf a)).1 = .defer ∨
        ((s.config.lookup (lineOf a)).1 = .discard ∧ s.control.mode = .drain))) →
    let merge : Bool := if inWindow a then true else (s.config.lookup (lineOf a)).2
    let merges : Prop := a ≠ 0xFFF11#20 ∧ merge = true ∧ mergeable s.queue (lineOf a)
    let acked : Byte := if a = 0xFFF10#20 then s.status.causes &&& ~~~b else s.status.causes
    (merges → a ≠ 0xFFF22#20 ∨ b = s.descriptor.generation →
      ∃ q, exec c s = .next { s with
          pins := writePins s.pins a b
          host := hostAt s.host (.write a b) (.answered .done)
          queue := q
          status := { s.status with
            causes := acked
            deferred := s.status.deferred + 1#16, merged := s.status.merged + 1#16 } } ∧
        queueTakes s.queue a b merge q true) ∧
    (¬ merges → s.config.stallLimit ≠ 0#8 →
      exec c s = .next { s with
        pins := writePins s.pins a b
        host := ⟨some ⟨.write a b, .stalled (.slot merge), false⟩,
          some (s.now + 64 * s.config.stallLimit.toNat), s.host.rstHigh, s.host.orphan⟩
        status := { s.status with causes := acked ||| 0x10#8 } }) ∧
    (¬ merges → s.config.stallLimit = 0#8 →
      exec c s = .next { s with
        pins := writePins s.pins a b
        host := hostAt s.host (.write a b) (.answered .err)
        status := rejectedStatus { s.status with causes := acked ||| 0x10#8 } })

/-- The other dispositions: a BLOCK write in ENTERING, HOLD and DRAIN stalls under the stall timer, or
with a stall limit of 0 is answered ERR; a DISCARD write in ENTERING and HOLD is answered done with the
discarded notice alone; every write waits in STARTUP and then during a reload, and in CLOSING one to the
window or to a line that is not READONLY waits. An ack byte that waits has been handed over but in
STARTUP (R32, R35, R36, R38, R40, R126). Instants are on the model's clock (log 3). -/
def Obligations.OtherWriteDispositions : Prop :=
  ∀ (s : State) (a : Addr) (b : Byte) (c : Instr), hostReady s →
    (c = .hostWrite a b ∨ c = .ackWrite b ∧ a = 0xFFF10#20 ∨ c = .fenceWrite b ∧ a = 0xFFF11#20 ∨
      c = .generationWrite b ∧ a = 0xFFF22#20 ∨
      ∃ n : Offset, c = .statusLineWrite n b ∧ a = 0xFFF0#16 ++ n) →
    let waits (k : WaitKind) (causes : Byte) : State := { s with
      pins := writePins s.pins a b
      host := hostAt s.host (.write a b) (.waiting k)
      status := { s.status with causes := causes } }
    let acked : Byte := if a = 0xFFF10#20 then s.status.causes &&& ~~~b else s.status.causes
    (s.control.mode = .startup → exec c s = .next (waits .startUp s.status.causes)) ∧
    (s.control.mode ≠ .startup → s.descriptor.reading = true →
      exec c s = .next (waits .reload acked)) ∧
    (s.control.mode = .closing → s.descriptor.reading = false → inStatusLine a = false →
      inWindow a = true ∨ (s.config.lookup (lineOf a)).1 ≠ .readonly →
      exec c s = .next (waits .closing acked)) ∧
    (inWindow a = false → s.descriptor.reading = false → queueingMode s.control.mode = true →
      (s.config.lookup (lineOf a)).1 = .block →
      (s.config.stallLimit ≠ 0#8 →
        exec c s = .next { s with
          pins := writePins s.pins a b
          host := ⟨some ⟨.write a b, .stalled .block, false⟩,
            some (s.now + 64 * s.config.stallLimit.toNat), s.host.rstHigh, s.host.orphan⟩ }) ∧
      (s.config.stallLimit = 0#8 →
        exec c s = .next { s with
          pins := writePins s.pins a b
          host := hostAt s.host (.write a b) (.answered .err)
          status := rejectedStatus s.status })) ∧
    (inWindow a = false → s.descriptor.reading = false →
      s.control.mode = .entering ∨ s.control.mode = .hold →
      (s.config.lookup (lineOf a)).1 = .discard →
      exec c s = .next { s with
        pins := writePins s.pins a b
        host := hostAt s.host (.write a b) (.answered .done)
        status := { s.status with
          discarded := if s.status.discarded = 0xFF#8 then 0xFF#8
            else s.status.discarded + 1#8 } })

/-- HOST_ACCESS_END: the host's return of HCS# or of the access's strobe ends an answered access, and the
part drives neither ERR nor HD7–HD0 for it any more. EARLY_RELEASE: an access that the host ends before
the answer is marked released and goes on, WAIT still asserted; nothing else changes (R119, R120). That
HCS# high leaves both strobes high is the model's choice (log 10). -/
def Obligations.HostEndsOrReleasesAccess : Prop :=
  ∀ (s : State) (op : BusOp) (st : Stage) (rel : Bool), s.host.access = some ⟨op, st, rel⟩ →
    ((∃ ans, st = .answered ans) →
      (op.isRead = true → s.pins.hwe = true →
        exec (.hostAccessEnd .hoe) s = .next { s with
          pins := { s.pins with hoe := true }, host := { s.host with access := none } }) ∧
      (op.isRead = false → s.pins.hoe = true →
        exec (.hostAccessEnd .hwe) s = .next { s with
          pins := { s.pins with hwe := true }, host := { s.host with access := none } }) ∧
      (∃ t, exec (.hostAccessEnd .hcs) s = .next t ∧ t.host = { s.host with access := none } ∧
        t.errPin = false ∧ t.hostData = none ∧ t.queue = s.queue ∧ t.status = s.status ∧
        t.memory = s.memory)) ∧
    ((∀ ans, st ≠ .answered ans) →
      (op.isRead = true →
        exec (.earlyRelease .hoe) s = .next { s with
          pins := { s.pins with hoe := true }
          host := { s.host with access := some ⟨op, st, true⟩ } }) ∧
      (op.isRead = false →
        exec (.earlyRelease .hwe) s = .next { s with
          pins := { s.pins with hwe := true }
          host := { s.host with access := some ⟨op, st, true⟩ } }) ∧
      (∃ t, exec (.earlyRelease .hcs) s = .next t ∧
        t.host = { s.host with access := some ⟨op, st, true⟩ } ∧ t.waitPin = true ∧
        t.queue = s.queue ∧ t.status = s.status ∧ t.memory = s.memory))

/-- STALL_EXPIRY: a write still stalled is answered ERR with the rejected count and WRITE_REJECTED,
neither queued nor written; a released one, with the host's strobes high, ends without an answer (R40,
R120). Instants are on the model's clock (log 3). -/
def Obligations.StallExpiryRejectsWrite : Prop :=
  ∀ (s : State) (op : BusOp) (k : StallKind) (due : Nat), s.host.stallTimer = some due →
    (s.host.access = some ⟨op, .stalled k, false⟩ →
      exec .stallExpiry s = .next { s with
        now := max s.now due
        host := ⟨some ⟨op, .answered .err, false⟩, none, s.host.rstHigh, s.host.orphan⟩
        status := rejectedStatus s.status }) ∧
    (s.host.access = some ⟨op, .stalled k, true⟩ → s.pins.hoe = true → s.pins.hwe = true →
      exec .stallExpiry s = .next { s with
        now := max s.now due
        host := ⟨none, none, s.host.rstHigh, s.host.orphan⟩
        status := rejectedStatus s.status })

/-- A slot freed by the drain, here at the done write of the head's last byte and at the drop after the
third fault, takes the write stalled for a slot: the stall timer stops, the write merges or is appended by
the queue as it then stands, in whatever mode, and the host is answered done with the deferred notice;
released, with the host's strobes high, the access ends. A generation byte sends its notice then (R10,
R41, R44, R120, R155). -/
def Obligations.FreedSlotTakesStalledWrite : Prop :=
  ∀ (s : State) (a a' : Addr) (b b' : Byte) (w : DrainWrite) (e : Entry) (rest : List Entry)
    (merge rel : Bool) (c : Instr),
    s.host.access = some ⟨.write a' b', .stalled (.slot merge), rel⟩ →
    (rel = true → s.pins.hoe = true ∧ s.pins.hwe = true) → s.descriptor.reading = false →
    s.port.access = some ⟨.drain, .write a b, .busyWatch⟩ → s.port.waiting.drain = none →
    s.engine.state = .writing → s.engine.outstanding = some w → s.engine.rampLevel ≠ 0 →
    s.queue = e :: rest → rest.length = 31 →
    (c = .mrdyReady ∧ w = ⟨false, a, b⟩ ∧ (∃ line, e.body = .data line [(offsetOf a, b)]) ∨
      c = .writeTimeout ∧ s.port.timeout ≠ none ∧ s.engine.attempts = 2) →
    ∃ t merged, exec c s = .next t ∧
      (if a' = 0xFFF11#20 then t.queue = rest ++ [⟨.fence b', .pending⟩] ∧ merged = false
        else queueTakes rest a' b' merge t.queue merged) ∧
      t.host = { s.host with
        access := if rel then none else some ⟨.write a' b', .answered .done, false⟩
        stallTimer := none } ∧
      t.status.deferred = s.status.deferred + 1#16 ∧
      t.status.merged = (if merged then s.status.merged + 1#16 else s.status.merged) ∧
      t.status.rejected = s.status.rejected ∧ t.engine.state = .wait ∧
      (a' ≠ 0xFFF22#20 ∨ b' = s.descriptor.generation → t.descriptor = s.descriptor) ∧
      (a' = 0xFFF22#20 → b' ≠ s.descriptor.generation → overlay rest 0xFFF20#20 = none →
        t.descriptor = { s.descriptor with reading := true, bytes := [] })

/-! ## HREQ and the modes -/

/-- HREQ_RISING in NORMAL enters ENTERING and begins a FORCED episode; with the writer IDLE and a quiet
port the HELD write begins at once, with an image of the shadow as it then stands (R54, R49, R50, R143).
The flag of the awaited marker and the clock are the model's (logs 3, 18). -/
def Obligations.HreqRisingEntersEntering : Prop :=
  ∀ s : State, s.porAsserted = false → s.control.mode = .normal → s.writer.state = .idle →
    s.engine.awaited = .nothing → s.host.access = none → portQuiet s →
    let u : State := { s with
      pins := { s.pins with hreq := true }
      control := ⟨.entering, .forced, true, some ⟨.held, true⟩⟩
      status := { s.status with
        safety := .held
        causes := s.status.causes ||| 0x01#8
        episodes := s.status.episodes + 1#8 } }
    ∃ m, exec .hreqRising s = .next { u with
        writer := { s.writer with state := .writing 0#4, image := u.shadow, record := .started }
        port := quietGrant s .status (.write 0xFFF00#20 (u.shadow.byte 0#4)) s.port.marker
        memory := m } ∧
      ∀ a, a ≠ 0xFFF00#20 ∨ s.pins.mrdy = false → memRead m a = memRead s.memory a

/-- HREQ_RISING in DRAIN or CLOSING enters HOLD and begins a FORCED episode: safety state HELD, no awaited
write, no pending status write, and in DRAIN the drain engine stops; UNMARKED is cleared exactly when no
write was in flight and the record says COMPLETED with a non-CLEAN state. HOLD_ENTERED is pending, said here
with no host access in progress (R64, R68, R51, R50, R100, R145, R148). -/
def Obligations.HreqRisingReentersHold : Prop :=
  ∀ s : State, s.porAsserted = false → s.control.mode = .drain ∨ s.control.mode = .closing →
    ∃ t, exec .hreqRising s = .next t ∧ t.control = ⟨.hold, .forced, true, none⟩ ∧
      t.status.safety = .held ∧ t.status.episodes = s.status.episodes + 1#8 ∧
      (s.host.access = none → t.causes.getLsbD 0 = true) ∧ t.writer.pending = false ∧
      (t.status.unmarked = false ↔
        s.writer.state = .idle ∧ ∃ f, f ≠ .clean ∧ s.writer.record = .completed f) ∧
      (s.control.mode = .drain → t.engine.state = .stopped ∨ t.engine.state = .stopping)

/-- An HREQ edge is recorded and has no other effect: a rising edge in STARTUP, ENTERING and HOLD, a falling
edge in every mode but HOLD, and in HOLD a falling edge while the monitor is WARNED (R48, R57, R58,
R59). -/
def Obligations.HreqEdgeOnlyRecorded : Prop :=
  ∀ s : State, s.porAsserted = false →
    (s.control.mode = .startup ∨ s.control.mode = .entering ∨ s.control.mode = .hold →
      exec .hreqRising s = .next { s with
        pins := { s.pins with hreq := true }, control := { s.control with hreq := true } }) ∧
    (s.control.mode ≠ .hold ∨ s.monitor.state = .warned →
      exec .hreqFalling s = .next { s with
        pins := { s.pins with hreq := false }, control := { s.control with hreq := false } })

/-- HREQ_FALLING in HOLD with the monitor GOOD leaves HOLD: to CLOSING with CLEAN and the FINAL write
when the queue is empty, to DRAIN with DRAINING, ramp level 7 and the DRAINING write when it is not. The
write begins at once, the writer IDLE, and the next sample is due 125 µs after the last, or now (R59,
R60, R61, R71, R143). The flag of the awaited marker and the clock are the model's (logs 3, 18), and so is
that a sample due now is left to the next SAMPLE (log 23). -/
def Obligations.HreqFallingLeavesHold : Prop :=
  ∀ (s : State) (timer : SampleTimer), s.porAsserted = false → s.control.mode = .hold →
    s.monitor.state = .good → s.monitor.timer = some timer → s.writer.state = .idle →
    s.engine.awaited = .nothing → s.host.access = none → portQuiet s →
    let u : State := { s with
      pins := { s.pins with hreq := false }
      control := ⟨if s.queue = [] then .closing else .drain, s.control.reason, false,
        some ⟨if s.queue = [] then .final else .draining, true⟩⟩
      status := { s.status with safety := if s.queue = [] then .clean else .draining }
      engine := { s.engine with
        rampLevel := if s.queue = [] then s.engine.rampLevel else 7 } }
    ∃ m, exec .hreqFalling s = .next { u with
        monitor := { s.monitor with
          timer := some ⟨timer.last, max s.now (timer.last + 125)⟩ }
        writer := { s.writer with state := .writing 0#4, image := u.shadow, record := .started }
        port := quietGrant s .status (.write 0xFFF00#20 (u.shadow.byte 0#4)) s.port.marker
        memory := m } ∧
      ∀ a, a ≠ 0xFFF00#20 ∨ s.pins.mrdy = false → memRead m a = memRead s.memory a

/-- QUEUE_EMPTY_REPORT in DRAIN with the queue still empty enters CLOSING: the safety state by the
monitor, the FINAL write begun with the writer IDLE, the drain engine stopped. In another mode, or with
the queue occupied again, the report changes nothing (R65, R58, R94, R100). The count of reports, the
flag of the awaited marker and the clock are the model's (logs 3, 17, 18). -/
def Obligations.QueueEmptyReportCloses : Prop :=
  ∀ (s : State) (n : Nat), s.queueEmptyReports = n + 1 →
    (s.control.mode ≠ .drain ∨ s.queue ≠ [] →
      exec .queueEmptyReport s = .next { s with queueEmptyReports := n }) ∧
    (s.control.mode = .drain → s.queue = [] → s.writer.state = .idle →
      s.engine.state = .emptyWait ∨ s.engine.state = .wait → s.host.access = none →
      portQuiet s →
      let u : State := { s with
        queueEmptyReports := n
        control := ⟨.closing, s.control.reason, s.control.hreq, some ⟨.final, true⟩⟩
        status := { s.status with
          safety := if s.monitor.state = .warned then .atRisk else .clean }
        engine := { s.engine with
          state := .stopped, rampTimer := none, gapTimer := none, retryTimer := none
          attempts := 0, awaited := .nothing, outstanding := none } }
      ∃ m, exec .queueEmptyReport s = .next { u with
          writer := { s.writer with
            state := .writing 0#4, image := u.shadow, record := .started }
          port := quietGrant s .status (.write 0xFFF00#20 (u.shadow.byte 0#4)) s.port.marker
          memory := m } ∧
        ∀ a, a ≠ 0xFFF00#20 ∨ s.pins.mrdy = false → memRead m a = memRead s.memory a)

/-- What a change of mode makes of the host access in progress. A write in a CLOSING wait is decided anew
at an HREQ rising edge or a LOW sample, which enters HOLD; a pass-through write not yet granted is
withdrawn and decided anew at one, which enters ENTERING or HOLD. At the end of the FINAL write, done or
faulted, a write in a CLOSING wait, or in a BLOCK stall with its timer stopped, passes through. At the end
of start-up an ack byte that waited is handed over and then takes its disposition, and a read of FFF00H is
answered by a fresh snapshot of the first working mode (R38, R39, R42, R124, R169, R126, R136). Whether an
ack of HOLD_ENTERED comes before or after the entry's own notice is left open (log 32). -/
def Obligations.ModeChangeMovesHostAccess : Prop :=
  ∀ (s : State) (a : Addr) (b : Byte) (st : Stage), s.porAsserted = false →
    s.descriptor.reading = false → inStatusLine a = false →
    inWindow a = true ∨ (s.config.lookup (lineOf a)).1 ≠ .readonly →
    s.queue = [] → s.engine.state = .stopped → s.engine.awaited = .nothing →
    s.host.access = some ⟨.write a b, st, false⟩ →
    (∀ (c : Instr) (m : Mode),
      (c = .hreqRising ∧ m = (if s.control.mode = .normal then .entering else .hold) ∨
        ∃ vsen, c = .sample vsen ∧ vsen < 2700 ∧ s.monitor.timer ≠ none ∧ m = .hold) →
      (s.control.mode = .closing ∧ st = .waiting .closing ∨
        s.control.mode = .normal ∧ st = .onPort ∧ s.port.waiting.host = some (.write a b)) →
      ∃ t, exec c s = .next t ∧ t.control.mode = m ∧
        (s.control.mode = .normal → t.port.waiting.host = none ∧
          ∀ op ph, t.port.access = some ⟨.host, op, ph⟩ →
            s.port.access = some ⟨.host, op, ph⟩) ∧
        decidedHeld s t a b) ∧
    (∀ (n : Offset) (op : BusOp) (c : Instr), s.control.mode = .closing →
      s.control.awaited = some ⟨.final, true⟩ → st = .waiting .closing ∨ st = .stalled .block →
      s.host.orphan = false → s.port.access = some ⟨.status, op, .busyWatch⟩ →
      s.port.waiting = ⟨none, none, none, none⟩ → s.port.timeout ≠ none →
      s.writer.state = .writing n → s.writer.abandoned = false → s.writer.pending = false →
      c = .writeTimeout ∨ c = .mrdyReady ∧ n = 15#4 →
      ∃ t, exec c s = .next t ∧ t.control.mode = .normal ∧ t.queue = [] ∧
        t.host = { s.host with
          access := some ⟨.write a b, .onPort, false⟩
          stallTimer := if st = .stalled .block then none else s.host.stallTimer } ∧
        t.port.access.map (fun acc => (acc.requester, acc.op)) = some (.host, .write a b) ∧
        t.status.deferred = s.status.deferred) ∧
    (s.control.mode = .startup → s.sequencer.step = .startWrite → s.control.awaited = none →
      (∃ op, s.port.access = some ⟨.status, op, .busyWatch⟩) →
      s.port.waiting = ⟨none, none, none, none⟩ → s.host.orphan = false →
      s.writer.state = .writing 15#4 → s.writer.abandoned = false → s.writer.pending = false →
      st = .waiting .startUp →
      (a = 0xFFF10#20 → ∃ t, exec .mrdyReady s = .next t ∧
        (∀ k < 8, 0 < k ∨ s.control.hreq = false → t.status.causes.getLsbD k =
          (s.status.causes.getLsbD k && !b.getLsbD k)) ∧
        (s.control.hreq = false → t.control.mode = .normal ∧ t.queue = [] ∧
          t.host.access = some ⟨.write a b, .onPort, false⟩ ∧
          t.port.access.map (fun acc => (acc.requester, acc.op)) = some (.host, .write a b)) ∧
        (s.control.hreq = true → (b.getLsbD 0 = false → t.status.causes.getLsbD 0 = true) ∧
          t.control.mode = .entering ∧ decidedHeld s t a b)) ∧
      ∀ u : State, u = { s with host := { s.host with
          access := some ⟨.read 0xFFF00#20, .waiting .startUp, false⟩ } } →
        ∃ t, exec .mrdyReady u = .next t ∧
          t.control.mode = (if s.control.hreq then .entering else .normal) ∧
          t.status.snapshotValid = true ∧ t.status.snapshot = t.shadow ∧
          t.host.access =
            some ⟨.read 0xFFF00#20, .answered (.data (t.shadow.byte 0#4)), false⟩)

/-! ## Supply samples -/

/-- A sample classes VSEN against 2.70 V and the level of Table 4-1 that the warning code in force selects:
LOW below 2.70 V, MARGINAL from there to below the warning level, GOOD at or above it; every warning
level is above the hold level, and under the default configuration it is 3.00 V (R70). -/
def Obligations.SampleClassByLevels : Prop :=
  let level (code : BitVec 3) : Nat :=
    [2800, 2850, 2900, 2950, 3000, 3050, 3100, 3150].getD code.toNat 0
  (∀ code, 2700 < level code) ∧ level 0#3 - 2700 = 100 ∧ level 7#3 - 2700 = 450 ∧
    level Configuration.default.warningCode = 3000 ∧
    ∀ (s : State) (vsen : Nat), s.monitor.timer ≠ none →
      ∃ t, exec (.sample vsen) s = .next t ∧
        (t.engine.lastClass = .low ↔ vsen < 2700) ∧
        (t.engine.lastClass = .marginal ↔ 2700 ≤ vsen ∧ vsen < level s.config.warningCode) ∧
        (t.engine.lastClass = .good ↔ level s.config.warningCode ≤ vsen)

/-- SAMPLE with no host access in progress moves the monitor by its filters: in GOOD the warn run counts
MARGINAL samples up to the warn filter and a LOW sample warns at once; in WARNED the recovery run counts
GOOD samples up to the recovery filter. The timer is aimed one period of the mode after this sample. In
DRAIN the class goes to the drain engine: MARGINAL or LOW at a running engine sets the ramp level to 7,
and MARGINAL re-arms the step timer for one period from this sample, where LOW ends the DRAIN and stops
it; GOOD, or any class at an engine that does not run, only replaces the last class (R71, R73, R74, R75,
R83, R92, R100). Instants are on the model's clock (log 3). -/
def Obligations.SampleMovesMonitor : Prop :=
  ∀ (s : State) (vsen last due : Nat), s.monitor.timer = some ⟨last, due⟩ →
    s.host.access = none →
    ∃ t, exec (.sample vsen) s = .next t ∧ t.now = max s.now due ∧
      t.monitor.timer =
        some ⟨t.now, t.now + (if t.control.mode = .hold then 1000 else 125)⟩ ∧
      ((t.monitor.state, t.monitor.warnRun, t.monitor.recoveryRun) =
        match s.monitor.state, classOf s.config.warningCode vsen with
        | .good, .good => (.good, 0, s.monitor.recoveryRun)
        | .good, .marginal =>
          if s.monitor.warnRun + 1 < s.config.warnFilter then
            (.good, s.monitor.warnRun + 1, s.monitor.recoveryRun)
          else (.warned, 0, s.monitor.recoveryRun)
        | .good, .low => (.warned, 0, s.monitor.recoveryRun)
        | .warned, .good =>
          if s.monitor.recoveryRun + 1 < s.config.recoveryFilter then
            (.warned, s.monitor.warnRun, s.monitor.recoveryRun + 1)
          else (.good, s.monitor.warnRun, 0)
        | .warned, _ => (.warned, s.monitor.warnRun, 0)) ∧
      (s.control.mode = .drain →
        let cls := classOf s.config.warningCode vsen
        let running : Prop := s.engine.state ≠ .stopped ∧ s.engine.state ≠ .stopping
        (cls = .good ∨ (cls = .marginal ∧ ¬ running) →
          t.engine = { s.engine with lastClass := cls }) ∧
        (cls = .marginal → running → t.engine = { s.engine with
          lastClass := cls
          rampLevel := 7
          rampTimer := some (t.now + (if s.config.rampSelect then 2000 else 500)) }) ∧
        (cls = .low → running → t.engine.lastClass = cls ∧ t.engine.rampLevel = 7 ∧
          t.engine.rampTimer = none ∧ (t.engine.state = .stopped ∨ t.engine.state = .stopping)))

/-- A LOW sample in any mode but HOLD enters HOLD with safety state HELD and no awaited write; the reason is
AUTO and an episode is counted, but from ENTERING, which keeps the reason and counts none. In HOLD it
leaves the mode controller as it is (R53, R56, R58, R63, R68, R76, R167). -/
def Obligations.LowSampleTrips : Prop :=
  ∀ (s : State) (vsen : Nat), s.monitor.timer ≠ none → vsen < 2700 →
    ∃ t, exec (.sample vsen) s = .next t ∧ t.monitor.state = .warned ∧
      (s.control.mode = .hold → t.control = s.control ∧ t.status = s.status) ∧
      (s.control.mode ≠ .hold → t.control.mode = .hold ∧ t.control.awaited = none ∧
        t.control.hreq = s.control.hreq ∧ t.status.safety = .held ∧ t.writer.pending = false ∧
        (t.status.unmarked = false ↔
          s.writer.state = .idle ∧ ∃ f, f ≠ .clean ∧ s.writer.record = .completed f)) ∧
      (s.control.mode = .entering →
        t.control.reason = s.control.reason ∧ t.status.episodes = s.status.episodes) ∧
      (s.control.mode ≠ .hold → s.control.mode ≠ .entering →
        t.control.reason = .auto ∧ t.status.episodes = s.status.episodes + 1#8)

/-- In NORMAL, in CLOSING and during the start-up write a sample that makes the monitor WARNED writes
AT_RISK into the shadow and one that makes it GOOD writes CLEAN, and each requests a status write: begun
at once with the writer IDLE, left pending with a write in flight. The mode stays. In ENTERING and DRAIN
such a sample moves neither the mode nor the safety state. In HOLD one that makes the monitor GOOD with
the recorded HREQ level low leaves HOLD: to CLOSING with CLEAN and the FINAL write where no entry is held,
to DRAIN with DRAINING, ramp level 7 and the DRAINING write where one is. Every other sample in HOLD that
is not LOW leaves the controller as it is (R52, R57, R59, R60, R61, R66, R143, R167). The flag of the
awaited marker is the model's (log 18). -/
def Obligations.SafetyFollowsMonitor : Prop :=
  ∀ (s : State) (vsen : Nat), s.monitor.timer ≠ none → 2700 ≤ vsen →
    ∃ t, exec (.sample vsen) s = .next t ∧
      (s.control.mode = .normal ∨ s.control.mode = .closing ∨ s.control.mode = .startup →
        t.control.mode = s.control.mode ∧ t.sequencer = s.sequencer ∧
        (t.monitor.state = s.monitor.state →
          t.status = s.status ∧ t.writer = s.writer ∧ t.port = s.port) ∧
        (t.monitor.state ≠ s.monitor.state →
          t.status.safety = (if t.monitor.state = .warned then .atRisk else .clean) ∧
          (s.writer.state = .idle → t.writer.state = .writing 0#4 ∧ t.writer.record = .started ∧
            t.writer.image.safety = t.status.safety ∧ t.writer.image.mode = s.control.mode) ∧
          (∀ n, s.writer.state = .writing n →
            t.writer = { s.writer with pending := true } ∧ t.port = s.port))) ∧
      (s.control.mode = .entering ∨ s.control.mode = .drain ∨
          (s.control.mode = .hold ∧ (s.control.hreq = true ∨ t.monitor.state = .warned ∨
            s.monitor.state = .good)) →
        t.control = s.control ∧ t.status = s.status ∧ t.writer = s.writer ∧ t.port = s.port) ∧
      (s.control.mode = .hold → s.control.hreq = false → s.monitor.state = .warned →
        classOf s.config.warningCode vsen = .good →
        s.config.recoveryFilter ≤ s.monitor.recoveryRun + 1 →
        t.monitor.state = .good ∧
        t.control = { s.control with
          mode := if s.queue = [] then .closing else .drain
          awaited := some ⟨if s.queue = [] then .final else .draining,
            decide (s.writer.state = .idle)⟩ } ∧
        t.status.safety = (if s.queue = [] then .clean else .draining) ∧ t.heldPin = true ∧
        (s.queue ≠ [] → t.engine.rampLevel = 7) ∧
        (s.writer.state = .idle → t.writer.state = .writing 0#4 ∧ t.writer.record = .started ∧
          t.writer.image.mode = t.control.mode ∧ t.writer.image.safety = t.status.safety ∧
          (portQuiet s → t.port.access.map (fun acc => (acc.requester, acc.op)) =
            some (.status, .write 0xFFF00#20 (t.writer.image.byte 0#4)))) ∧
        (∀ n, s.writer.state = .writing n → t.writer = { s.writer with pending := true }))

/-! ## The drain engine -/

/-- GAP_EXPIRY and RETRY_PAUSE_EXPIRY claim the head: it becomes DRAINING, and its lowest present offset,
or a fence's tag, becomes the DRAIN request, granted at once on a quiet port. Where no entry is held the
claim is answered EMPTY and the engine enters EMPTY_WAIT, with no request. While a status write is
awaited the gap's end claims nothing. RAMP_STEP lowers a level above 0 by one while the last class is
GOOD, and re-arms the step timer for 0.5 ms or 2 ms by the ramp select; nothing else changes (R15, R86,
R89, R91, R93, R95). Instants are on the model's clock (log 3). -/
def Obligations.DrainTimersExpire : Prop :=
  ∀ (s : State) (due : Nat),
    (∀ (e : Entry) (rest : List Entry) (w : DrainWrite), s.control.mode = .drain →
      s.queue = e :: rest → portQuiet s → headWrite e w →
      let claimed (g r : Option Nat) (m : Memory) : State := { s with
        now := max s.now due
        queue := { e with state := .draining } :: rest
        engine := { s.engine with
          state := .writing, gapTimer := g, retryTimer := r, outstanding := some w }
        port := { quietGrant s .drain (.write w.addr w.byte) .drain with
          timeout := some (max s.now due + 2000) }
        memory := m }
      let frame (m : Memory) : Prop :=
        ∀ a, a ≠ w.addr ∨ s.pins.mrdy = false → memRead m a = memRead s.memory a
      (s.engine.state = .wait → s.engine.gapTimer = some due → s.engine.awaited = .nothing →
        ∃ m, exec .gapExpiry s = .next (claimed none s.engine.retryTimer m) ∧ frame m) ∧
      (s.engine.state = .wait → s.engine.gapTimer = some due → s.engine.awaited ≠ .nothing →
        exec .gapExpiry s = .next { s with
          now := max s.now due, engine := { s.engine with gapTimer := none } }) ∧
      (s.engine.state = .pause → s.engine.retryTimer = some due →
        ∃ m, exec .retryPauseExpiry s = .next (claimed s.engine.gapTimer none m) ∧ frame m)) ∧
    (s.queue = [] →
      (s.engine.state = .wait → s.engine.gapTimer = some due → s.engine.awaited = .nothing →
        exec .gapExpiry s = .next { s with
          now := max s.now due
          engine := { s.engine with
            state := .emptyWait, gapTimer := none, outstanding := none } }) ∧
      (s.engine.state = .pause → s.engine.retryTimer = some due →
        exec .retryPauseExpiry s = .next { s with
          now := max s.now due
          engine := { s.engine with
            state := .emptyWait, retryTimer := none, outstanding := none } })) ∧
    (s.engine.rampTimer = some due →
      exec .rampStep s = .next { s with
        now := max s.now due
        engine := { s.engine with
          rampLevel := if s.engine.lastClass = .good then s.engine.rampLevel - 1
            else s.engine.rampLevel
          rampTimer := some (max s.now due + (if s.config.rampSelect then 2000 else 500)) } })

/-- A done drain write of a DATA byte, here at MRDY_READY in its busy watch: the memory holds the byte,
the offset leaves the head, the head leaves when it was the last, and a gap of 8 µs for each ramp level
runs; a removal that leaves the queue empty sends the queue-empty report (R16, R87, R90, R94, R110,
R114). Instants are on the model's clock (log 3). -/
def Obligations.DrainedByteLeavesHead : Prop :=
  ∀ (s : State) (a : Addr) (b : Byte) (line : Line) (st : EntryState)
    (more : List Host.Cell) (rest : List Entry),
    s.port.access = some ⟨.drain, .write a b, .busyWatch⟩ →
    s.port.waiting = ⟨none, none, none, none⟩ → s.engine.state = .writing →
    s.engine.outstanding = some ⟨false, a, b⟩ → s.engine.rampLevel ≠ 0 →
    s.queue = ⟨.data line ((offsetOf a, b) :: more), st⟩ :: rest →
    (((offsetOf a, b) :: more).map Prod.fst).Pairwise (· < ·) →
    s.host.access = none →
    ∃ m, exec .mrdyReady s = .next { s with
        pins := { s.pins with mrdy := true }
        memory := m
        queue := if more = [] then rest else ⟨.data line more, st⟩ :: rest
        queueEmptyReports :=
          if more = [] ∧ rest = [] then s.queueEmptyReports + 1 else s.queueEmptyReports
        engine := { s.engine with
          state := .wait, attempts := 0, outstanding := none
          gapTimer := some (s.now + 8 * s.engine.rampLevel) }
        port := ⟨none, ⟨none, none, none, none⟩, s.port.marker, none⟩ } ∧
      memRead m a = some b ∧ ∀ a', a' ≠ a → memRead m a' = memRead s.memory a'

/-- A done drain write of a fence tag completes the fence: the last completed fence tag is the byte,
FENCE_LOSS takes OPEN_LOSS, OPEN_LOSS and FENCE_UNKNOWN are cleared, the entry leaves the queue, and the
status write the engine now awaits begins with the writer IDLE (R17, R88, R140, R143). Instants are on
the model's clock (log 3). -/
def Obligations.DrainedFenceCompletes : Prop :=
  ∀ (s : State) (tag : Byte) (st : EntryState) (rest : List Entry),
    s.port.access = some ⟨.drain, .write 0xFFF11#20 tag, .busyWatch⟩ →
    s.port.waiting = ⟨none, none, none, none⟩ → s.engine.state = .writing →
    s.engine.outstanding = some ⟨true, 0xFFF11#20, tag⟩ → s.engine.rampLevel ≠ 0 →
    s.control.mode = .drain → s.writer.state = .idle → s.host.access = none →
    s.queue = ⟨.fence tag, st⟩ :: rest →
    ∃ t, exec .mrdyReady s = .next t ∧ t.queue = rest ∧
      t.status.lastTag = tag ∧ t.status.fenceLoss = s.engine.openLoss ∧
      t.status.fenceUnknown = false ∧ t.engine.openLoss = false ∧ t.engine.state = .wait ∧
      t.engine.awaited = .begun ∧ t.engine.gapTimer = some (s.now + 8 * s.engine.rampLevel) ∧
      t.writer.state = .writing 0#4 ∧ t.writer.image.lastTag = tag ∧
      t.writer.image.occupancy = rest.length ∧ t.port.access.map PortAccess.requester = some .status ∧
      memRead t.memory 0xFFF11#20 = some tag ∧
      ∀ a, a ≠ 0xFFF11#20 → a ≠ 0xFFF00#20 → memRead t.memory a = memRead s.memory a

/-- WRITE_TIMEOUT of a drain write in WRITING, in its ready wait or busy watch: MEM_FAULT, and on the
first and second fault a retry pause of 1 ms with the queue as it was; on the third the head is dropped,
with the dropped count, OPEN_LOSS, and a status write that the engine awaits (R95, R96, R97, R98, R111).
Instants are on the model's clock (log 3); the byte is unknown since the strobe and a neighbour may be
(logs 6, 9). -/
def Obligations.DrainFaultPausesThenDrops : Prop :=
  ∀ (s : State) (a : Addr) (b : Byte) (ph : Phase) (w : DrainWrite) (e : Entry)
    (rest : List Entry) (due : Nat),
    s.port.access = some ⟨.drain, .write a b, ph⟩ →
    ph = .readyWait ∨ ph = .busyWatch → s.port.waiting = ⟨none, none, none, none⟩ →
    s.port.timeout = some due → s.engine.state = .writing → s.engine.outstanding = some w →
    s.host.access = none → s.queue = e :: rest →
    (s.engine.attempts < 2 →
      ∃ m n, exec .writeTimeout s = .next { s with
          now := max s.now due
          port := ⟨none, ⟨none, none, none, none⟩, s.port.marker, none⟩
          status := { s.status with causes := s.status.causes ||| 0x20#8 }
          engine := { s.engine with
            state := .pause, attempts := s.engine.attempts + 1, outstanding := none
            retryTimer := some (max s.now due + 1000) }
          memory := m
          freeIndex := n } ∧
        faultLeaves s a ph m n) ∧
    (s.engine.attempts = 2 → s.control.mode = .drain → s.writer.state = .idle →
      ∃ t, exec .writeTimeout s = .next t ∧ t.queue = rest ∧
        t.status.dropped = (if s.status.dropped = 0xFF#8 then 0xFF#8
          else s.status.dropped + 1#8) ∧
        t.status.causes = s.status.causes ||| 0x20#8 ∧ t.status.lastTag = s.status.lastTag ∧
        t.status.fenceLoss = s.status.fenceLoss ∧ t.engine.openLoss = true ∧
        t.engine.attempts = 0 ∧ t.engine.state = .wait ∧ t.engine.gapTimer = none ∧
        t.engine.awaited = .begun ∧ t.writer.state = .writing 0#4 ∧
        t.writer.image.openLoss = true ∧
        t.queueEmptyReports =
          (if rest = [] then s.queueEmptyReports + 1 else s.queueEmptyReports) ∧
        ∀ a', ph = .readyWait ∨ ¬ neighbours a a' → a' ≠ 0xFFF00#20 →
          memRead t.memory a' = memRead s.memory a')

/-- HREQ_RISING in DRAIN stops the drain engine by its state: a granted write runs on in STOPPING; an
ungranted request is withdrawn, and there and in EMPTY_WAIT, WAIT and PAUSE the head is released and the
engine is STOPPED (R100, R20). In STOPPING the completion is taken and the head released: a done byte
leaves the head, a done tag completes its fence, whose status write is dropped in HOLD and left pending
behind a write in flight, and a fault leaves the head whole, with MEM_FAULT alone (R101, R143). Instants
are on the model's clock (log 3); the byte is unknown since the strobe and a neighbour may be (logs 6, 9).
-/
def Obligations.StoppedDrainFinishesItsWrite : Prop :=
  ∀ (s : State), s.host.access = none →
    let stopped (e : DrainEngine) : DrainEngine := { e with
      state := .stopped, rampTimer := none, gapTimer := none, retryTimer := none, attempts := 0
      awaited := .nothing, outstanding := none }
    (s.porAsserted = false → s.control.mode = .drain →
      ∃ t, exec .hreqRising s = .next t ∧
        (s.engine.state = .writing → s.port.waiting.drain = none →
          t.engine = { s.engine with state := .stopping, rampTimer := none } ∧ t.queue = s.queue) ∧
        (s.engine.state = .emptyWait ∨ s.engine.state = .wait ∨ s.engine.state = .pause ∨
            (s.engine.state = .writing ∧ s.port.waiting.drain ≠ none) →
          t.engine = stopped s.engine ∧
          (s.engine.state = .writing → t.port.waiting.drain = none) ∧
          (s.queue = [] → t.queue = []) ∧
          ∀ body st rest, s.queue = ⟨body, st⟩ :: rest → t.queue = ⟨body, .pending⟩ :: rest)) ∧
    (s.engine.state = .stopping → s.port.waiting = ⟨none, none, none, none⟩ →
      ∀ (a : Addr) (b : Byte) (rest : List Entry),
      s.port.access = some ⟨.drain, .write a b, .busyWatch⟩ → (∀ e ∈ rest, e.state = .pending) →
      let u (m : Memory) : State := { s with
        memory := m
        engine := stopped s.engine
        port := ⟨none, ⟨none, none, none, none⟩, s.port.marker, none⟩ }
      (∀ (line : Line) (st : EntryState) (more : List Host.Cell),
        s.engine.outstanding = some ⟨false, a, b⟩ →
        s.queue = ⟨.data line ((offsetOf a, b) :: more), st⟩ :: rest →
        (((offsetOf a, b) :: more).map Prod.fst).Pairwise (· < ·) →
        ∃ m, exec .mrdyReady s = .next { u m with
            pins := { s.pins with mrdy := true }
            queue := if more = [] then rest else ⟨.data line more, .pending⟩ :: rest
            queueEmptyReports :=
              if more = [] ∧ rest = [] then s.queueEmptyReports + 1
              else s.queueEmptyReports } ∧
          memRead m a = some b ∧ ∀ a', a' ≠ a → memRead m a' = memRead s.memory a') ∧
      (∀ st, s.engine.outstanding = some ⟨true, a, b⟩ → s.queue = ⟨.fence b, st⟩ :: rest →
        s.control.mode = .hold ∨ (∃ n, s.writer.state = .writing n) →
        ∃ m, exec .mrdyReady s = .next { u m with
            pins := { s.pins with mrdy := true }
            queue := rest
            queueEmptyReports :=
              if rest = [] then s.queueEmptyReports + 1 else s.queueEmptyReports
            status := { s.status with
              lastTag := b, fenceLoss := s.engine.openLoss, fenceUnknown := false }
            engine := { stopped s.engine with openLoss := false }
            writer := { s.writer with
              pending := if s.control.mode = .hold then s.writer.pending else true } } ∧
          memRead m a = some b ∧ ∀ a', a' ≠ a → memRead m a' = memRead s.memory a') ∧
      (∀ (w : DrainWrite) (body : EntryBody) (st : EntryState) (due : Nat),
        s.engine.outstanding = some w → s.queue = ⟨body, st⟩ :: rest →
        s.port.timeout = some due →
        ∃ m n, exec .writeTimeout s = .next { u m with
            now := max s.now due
            queue := ⟨body, .pending⟩ :: rest
            status := { s.status with causes := s.status.causes ||| 0x20#8 }
            freeIndex := n } ∧
          faultLeaves s a .busyWatch m n))

/-! ## The memory port -/

/-- At a grant decision of an IDLE port STATUS stands first, then LOAD, then of HOST and DRAIN the one
the alternation marker does not name; a held-back request is passed over, and only a grant to HOST or
DRAIN moves the marker (Table 6-3, R106, R107, R108). Instants are on the model's clock (log 3). -/
def Obligations.GrantOrder : Prop :=
  ∀ s : State, s.port.access = none →
    let asks (r : Requester) : Option BusOp := eligible s.control.mode s.port.waiting r
    let granted (r : Requester) (op : BusOp) (marker : Marker) : Prop :=
      (decideGrant s).port.access.map (fun acc => (acc.requester, acc.op)) = some (r, op) ∧
        (decideGrant s).port.waiting = s.port.waiting.put r none ∧
        (decideGrant s).port.marker = marker ∧
        (decideGrant s).port.timeout = some (s.now + 2000)
    (∀ op, asks .status = some op → granted .status op s.port.marker) ∧
    (∀ op, asks .status = none → asks .load = some op → granted .load op s.port.marker) ∧
    (∀ h, asks .status = none → asks .load = none → asks .host = some h →
      asks .drain = none ∨ s.port.marker = .drain → granted .host h .host) ∧
    (∀ d, asks .status = none → asks .load = none → asks .drain = some d →
      asks .host = none ∨ s.port.marker = .host → granted .drain d .drain) ∧
    ((∀ r, asks r = none) → decideGrant s = s)

/-- A ready wait ends at MRDY_READY: a read goes on to its read strobe, a write to its write strobe, from
which its byte is unknown until the write is done. WRITE_STROBE_END with MRDY low before the 2 ms bound
begins the busy watch; with MRDY high there, or at MRDY_READY in the busy watch, a pass-through write is
done: the memory holds its byte and the host is answered done, or, where RST# cancelled the access after
its grant, the access ends with no answer. Where the strobe passed the 2 ms bound the write faults,
whatever MRDY (R109, R110, R111, R114, R125, R128). That the byte is unknown from the strobe on, and that
a strobe past the bound runs to its end and then faults, are the model's reading (logs 6, 8); a neighbour
may be unknown then (log 9). -/
def Obligations.StrobesBeginAndEndByMrdy : Prop :=
  ∀ (s : State) (r : Requester) (a : Addr) (b : Byte),
    (s.port.access = some ⟨r, .read a, .readyWait⟩ →
      exec .mrdyReady s = .next { s with
        pins := { s.pins with mrdy := true }
        port := { s.port with access := some ⟨r, .read a, .readStrobe false⟩ } }) ∧
    (s.port.access = some ⟨r, .write a b, .readyWait⟩ →
      ∃ m, exec .mrdyReady s = .next { s with
          pins := { s.pins with mrdy := true }
          port := { s.port with access := some ⟨r, .write a b, .writeStrobe false⟩ }
          memory := m } ∧
        memRead m a = none ∧ ∀ a', a' ≠ a → memRead m a' = memRead s.memory a') ∧
    (s.port.access = some ⟨r, .write a b, .writeStrobe false⟩ →
      exec (.writeStrobeEnd false) s = .next { s with
        pins := { s.pins with mrdy := false }
        port := { s.port with access := some ⟨r, .write a b, .busyWatch⟩ } }) ∧
    (s.port.access = some ⟨.host, .write a b, .busyWatch⟩ →
      s.port.waiting = ⟨none, none, none, none⟩ → a ≠ 0xFFF11#20 → a ≠ 0xFFF22#20 →
      (s.host.orphan = false ∧ s.host.access = some ⟨.write a b, .onPort, false⟩) ∨
        (s.host.orphan = true ∧ s.host.access = none) →
      ∃ m, exec .mrdyReady s = .next { s with
          pins := { s.pins with mrdy := true }
          host := { s.host with
            access := if s.host.orphan then none
              else some ⟨.write a b, .answered .done, false⟩
            orphan := false }
          port := ⟨none, ⟨none, none, none, none⟩, s.port.marker, none⟩
          memory := m } ∧
        memRead m a = some b ∧ ∀ a', a' ≠ a → memRead m a' = memRead s.memory a') ∧
    (∀ late, s.port.access = some ⟨.host, .write a b, .writeStrobe late⟩ →
      s.port.waiting = ⟨none, none, none, none⟩ → s.host.orphan = false →
      s.host.access = some ⟨.write a b, .onPort, false⟩ →
      (late = false → a ≠ 0xFFF11#20 → a ≠ 0xFFF22#20 →
        ∃ m, exec (.writeStrobeEnd true) s = .next { s with
            pins := { s.pins with mrdy := true }
            host := hostAt s.host (.write a b) (.answered .done)
            port := ⟨none, ⟨none, none, none, none⟩, s.port.marker, none⟩
            memory := m } ∧
          memRead m a = some b ∧ ∀ a', a' ≠ a → memRead m a' = memRead s.memory a') ∧
      (late = true → ∀ mrdy, ∃ m n, exec (.writeStrobeEnd mrdy) s = .next { s with
            pins := { s.pins with mrdy := mrdy }
            host := hostAt s.host (.write a b) (.answered .err)
            status := rejectedStatus { s.status with causes := s.status.causes ||| 0x20#8 }
            port := ⟨none, ⟨none, none, none, none⟩, s.port.marker, none⟩
            memory := m
            freeIndex := n } ∧
          faultLeaves s a (.writeStrobe true) m n))

/-- A fence or generation byte that passed through takes effect at its done completion, also when RST#
cancelled its access after the grant. The fence: the tag, FENCE_LOSS from OPEN_LOSS, OPEN_LOSS and
FENCE_UNKNOWN cleared, and no status write requested. The generation byte: equal to the applied
generation it does nothing more, different it starts a reload at index 0 with the LOAD read of FFF20H
where the queue does not hold that byte, and during a reading it becomes the held notice (R127, R128,
R140, R155, R156). Instants are on the model's clock (log 3). -/
def Obligations.PassedWindowByteTakesEffect : Prop :=
  ∀ (s : State) (a : Addr) (b : Byte),
    s.port.access = some ⟨.host, .write a b, .busyWatch⟩ →
    s.port.waiting = ⟨none, none, none, none⟩ →
    (s.host.orphan = false ∧ s.host.access = some ⟨.write a b, .onPort, false⟩) ∨
      (s.host.orphan = true ∧ s.host.access = none) →
    let done (m : Memory) : State := { s with
      pins := { s.pins with mrdy := true }
      host := { s.host with
        access := if s.host.orphan then none else some ⟨.write a b, .answered .done, false⟩
        orphan := false }
      port := ⟨none, ⟨none, none, none, none⟩, s.port.marker, none⟩
      memory := m }
    let frame (m : Memory) : Prop := memRead m a = some b ∧
      ∀ a', a' ≠ a → memRead m a' = memRead s.memory a'
    (a = 0xFFF11#20 → ∃ m, exec .mrdyReady s = .next { done m with
        status := { s.status with
          lastTag := b, fenceLoss := s.engine.openLoss, fenceUnknown := false }
        engine := { s.engine with openLoss := false } } ∧ frame m) ∧
    (a = 0xFFF22#20 → s.descriptor.reading = false → b = s.descriptor.generation →
      ∃ m, exec .mrdyReady s = .next (done m) ∧ frame m) ∧
    (a = 0xFFF22#20 → s.descriptor.reading = false → b ≠ s.descriptor.generation →
      overlay s.queue 0xFFF20#20 = none →
      ∃ m, exec .mrdyReady s = .next { done m with
          descriptor := { s.descriptor with reading := true, bytes := [] }
          port := ⟨some ⟨.load, .read 0xFFF20#20, .readStrobe false⟩, ⟨none, none, none, none⟩,
            s.port.marker, some (s.now + 2000)⟩ } ∧ frame m) ∧
    (a = 0xFFF22#20 → s.descriptor.reading = true →
      ∃ m, exec .mrdyReady s = .next { done m with
          descriptor := { s.descriptor with held := some b } } ∧ frame m)

/-- WRITE_TIMEOUT of a pass-through write, in its ready wait or busy watch: the host is answered ERR,
with the rejected count, WRITE_REJECTED and MEM_FAULT; a read's ready wait ends there and its strobe
begins; a write strobe runs on past the bound (R109, R111, R114, R125; log 8). Instants are on the model's
clock (log 3); the byte is unknown since the strobe and a neighbour may be (logs 6, 9). -/
def Obligations.WriteTimeoutFaults : Prop :=
  ∀ (s : State) (a : Addr) (b : Byte) (due : Nat), s.port.timeout = some due →
    (∀ ph, ph = .readyWait ∨ ph = .busyWatch →
      s.port.access = some ⟨.host, .write a b, ph⟩ →
      s.port.waiting = ⟨none, none, none, none⟩ → s.host.orphan = false →
      s.host.access = some ⟨.write a b, .onPort, false⟩ →
      ∃ m n, exec .writeTimeout s = .next { s with
          now := max s.now due
          host := hostAt s.host (.write a b) (.answered .err)
          status := rejectedStatus { s.status with causes := s.status.causes ||| 0x20#8 }
          port := ⟨none, ⟨none, none, none, none⟩, s.port.marker, none⟩
          memory := m
          freeIndex := n } ∧
        faultLeaves s a ph m n) ∧
    (∀ r, s.port.access = some ⟨r, .read a, .readyWait⟩ →
      exec .writeTimeout s = .next { s with
        now := max s.now due
        port := { s.port with access := some ⟨r, .read a, .readStrobe true⟩, timeout := none } }) ∧
    (∀ r late, s.port.access = some ⟨r, .write a b, .writeStrobe late⟩ →
      exec .writeTimeout s = .next { s with
        now := max s.now due
        port := { s.port with access := some ⟨r, .write a b, .writeStrobe true⟩, timeout := none } })

/-- READ_STROBE_END of a host read answers the host with a byte: the memory's, unless the memory was busy
at the 2 ms bound or the byte is unknown; the memory is left as it is (R109, R114, R119, R122). The other
byte is a free value (log 5). -/
def Obligations.ReadStrobeAnswersHost : Prop :=
  ∀ (s : State) (a : Addr) (busy : Bool),
    s.port.access = some ⟨.host, .read a, .readStrobe busy⟩ →
    s.port.waiting = ⟨none, none, none, none⟩ → s.host.orphan = false →
    s.host.access = some ⟨.read a, .onPort, false⟩ →
    ∃ (b : Byte) (n : Nat), exec .readStrobeEnd s = .next { s with
        host := hostAt s.host (.read a) (.answered (.data b))
        port := ⟨none, ⟨none, none, none, none⟩, s.port.marker, none⟩
        freeIndex := n } ∧
      (busy = false → ∀ v, memRead s.memory a = some v → b = v ∧ n = s.freeIndex)

/-! ## Status writes -/

/-- The done completion of a byte 0 to 14 of a status write requests the next byte of the image, one
address higher, and STATUS is granted again at once whatever else waits. The done completion of byte 15
ends the write: the record is COMPLETED with the image's safety state, and a non-CLEAN image clears
UNMARKED where a CLEAN one leaves it. A fault of any byte ends it too, with the record FAULTED, MEM_FAULT
set and UNMARKED as it was. Where nobody awaits it, the writer is IDLE, or a pending write begins, with
MEM_FAULT in its image after a fault. Where the drain engine awaits it and no gap runs, the engine claims
the head, or enters EMPTY_WAIT with no entry held; with a gap it waits on. The completion of an abandoned
write's last byte, done or faulted, ends it with its record as it was: the writer is IDLE, or a pending
write begins, and a fault sets MEM_FAULT (R86, R89, R93, R107, R115, R144, R145, R149).
Instants are on the model's clock (log 3); the byte is unknown since the strobe and a neighbour may be
(logs 6, 9). -/
def Obligations.StatusWriteByteEnds : Prop :=
  ∀ (s : State) (n : Offset) (a : Addr) (b : Byte),
    s.port.access = some ⟨.status, .write a b, .busyWatch⟩ → s.writer.state = .writing n →
    (s.control.mode ≠ .hold → s.port.waiting.status = none → n ≠ 15#4 →
      s.writer.abandoned = false →
      ∃ m, exec .mrdyReady s = .next { s with
          pins := { s.pins with mrdy := true }
          writer := { s.writer with state := .writing (n + 1#4) }
          port := ⟨some ⟨.status, .write (0xFFF0#16 ++ (n + 1#4)) (s.writer.image.byte (n + 1#4)),
            .writeStrobe false⟩, s.port.waiting, s.port.marker, some (s.now + 2000)⟩
          memory := m } ∧
        (a ≠ 0xFFF0#16 ++ (n + 1#4) → memRead m a = some b) ∧
        ∀ a', a' ≠ a → a' ≠ 0xFFF0#16 ++ (n + 1#4) → memRead m a' = memRead s.memory a') ∧
    (s.port.waiting = ⟨none, none, none, none⟩ → s.writer.abandoned = false →
      (s.control.mode = .startup → s.sequencer.step ≠ .startWrite) →
      (∀ k, s.control.awaited ≠ some ⟨k, true⟩) →
      let quiet : MemoryPort := ⟨none, ⟨none, none, none, none⟩, s.port.marker, none⟩
      let cleared : Bool := if s.writer.image.safety = .clean then s.status.unmarked else false
      (s.engine.awaited ≠ .begun → s.writer.pending = false →
        (n = 15#4 → ∃ m, exec .mrdyReady s = .next { s with
            pins := { s.pins with mrdy := true }
            writer := { s.writer with
              state := .idle, record := .completed s.writer.image.safety }
            status := { s.status with unmarked := cleared }
            port := quiet
            memory := m } ∧
          memRead m a = some b ∧ ∀ a', a' ≠ a → memRead m a' = memRead s.memory a') ∧
        ∀ due, s.port.timeout = some due →
          ∃ m k, exec .writeTimeout s = .next { s with
              now := max s.now due
              writer := { s.writer with state := .idle, record := .faulted }
              status := { s.status with causes := s.status.causes ||| 0x20#8 }
              port := quiet
              memory := m
              freeIndex := k } ∧
            faultLeaves s a .busyWatch m k) ∧
      ∀ (fault : Bool) (c : Instr),
        (c = .mrdyReady ∧ fault = false ∧ n = 15#4 ∨
          c = .writeTimeout ∧ fault = true ∧ s.port.timeout ≠ none) →
        (s.engine.awaited ≠ .begun → s.writer.pending = true → s.control.mode ≠ .hold →
          ∃ t, exec c s = .next t ∧ t.writer = ⟨.writing 0#4, false, false, t.shadow, .started⟩ ∧
            t.status = { s.status with
              causes := if fault then s.status.causes ||| 0x20#8 else s.status.causes
              unmarked := if fault then s.status.unmarked else cleared } ∧
            t.control.mode = s.control.mode ∧ t.engine.state = s.engine.state ∧
            t.port.access.map (fun acc => (acc.requester, acc.op)) =
              some (.status, .write 0xFFF00#20 (t.writer.image.byte 0#4))) ∧
        (s.engine.awaited = .begun → s.writer.pending = false → s.control.mode = .drain →
          ∃ t, exec c s = .next t ∧ t.writer.state = .idle ∧ t.control = s.control ∧
            (s.engine.state ≠ .wait ∨ s.engine.gapTimer ≠ none →
              t.queue = s.queue ∧ t.engine = { s.engine with awaited := .nothing }) ∧
            (s.engine.state = .wait → s.engine.gapTimer = none →
              (s.queue = [] → t.queue = [] ∧ t.port.access = none ∧
                t.engine = { s.engine with
                  awaited := .nothing, state := .emptyWait, outstanding := none }) ∧
              ∀ e rest w, s.queue = e :: rest → headWrite e w →
                t.queue = { e with state := .draining } :: rest ∧
                t.engine = { s.engine with
                  awaited := .nothing, state := .writing, outstanding := some w } ∧
                t.port.access.map (fun acc => (acc.requester, acc.op)) =
                  some (.drain, .write w.addr w.byte)))) ∧
    (s.port.waiting = ⟨none, none, none, none⟩ → s.writer.abandoned = true →
      (s.writer.pending = false →
        (∃ m, exec .mrdyReady s = .next { s with
            pins := { s.pins with mrdy := true }
            writer := { s.writer with state := .idle, abandoned := false }
            port := ⟨none, ⟨none, none, none, none⟩, s.port.marker, none⟩
            memory := m } ∧
          memRead m a = some b ∧ ∀ a', a' ≠ a → memRead m a' = memRead s.memory a') ∧
        ∀ due, s.port.timeout = some due →
          ∃ m k, exec .writeTimeout s = .next { s with
              now := max s.now due
              writer := { s.writer with state := .idle, abandoned := false }
              status := { s.status with causes := s.status.causes ||| 0x20#8 }
              port := ⟨none, ⟨none, none, none, none⟩, s.port.marker, none⟩
              memory := m
              freeIndex := k } ∧
            faultLeaves s a .busyWatch m k) ∧
      (s.writer.pending = true → s.control.mode ≠ .hold → ∃ t, exec .mrdyReady s = .next t ∧
        t.writer = ⟨.writing 0#4, false, false, s.shadow, .started⟩ ∧
        t.control = { s.control with
          awaited := s.control.awaited.map fun w => { w with begun := true } } ∧
        t.status = s.status ∧
        t.port.access.map (fun acc => (acc.requester, acc.op)) =
          some (.status, .write 0xFFF00#20 (s.shadow.byte 0#4))))

/-- The end of the awaited write moves the mode, done or faulted: the HELD write to HOLD, and on by the
exit condition; the DRAINING write starts the drain engine on the head; the FINAL write to NORMAL with
DRAIN_DONE, where a write left pending then begins, with DRAIN_DONE in its image. A fault sets MEM_FAULT,
records FAULTED and leaves UNMARKED but for HOLD's determination; a done end records COMPLETED and clears
UNMARKED by a non-CLEAN image (R49, R55, R59, R62, R67, R144, R148, R149). That the end is reported before
the pending write begins, and the flag of the awaited marker, are the model's reading (logs 14, 18). -/
def Obligations.AwaitedWriteEndMovesMode : Prop :=
  ∀ (s : State) (n : Offset) (op : BusOp) (ph : Phase) (k : AwaitedKind) (fault : Bool),
    s.port.access = some ⟨.status, op, ph⟩ → op.isRead = false →
    ph = .busyWatch ∨ (fault = true ∧ ph = .readyWait) →
    s.port.waiting = ⟨none, none, none, none⟩ →
    s.port.timeout ≠ none → s.writer.state = .writing n → s.writer.abandoned = false →
    (fault = false → n = 15#4) →
    s.control.awaited = some ⟨k, true⟩ → s.engine.awaited = .nothing → s.host.access = none →
    let record : WriteRecord :=
      if fault then .faulted else .completed s.writer.image.safety
    let unmarked : Bool :=
      if fault = true ∨ s.writer.image.safety = .clean then s.status.unmarked else false
    ∃ t, exec (if fault then .writeTimeout else .mrdyReady) s = .next t ∧
      (fault = true → t.status.causes.getLsbD 5 = true) ∧
      (k = .held → s.control.mode = .entering →
        t.status.episodes = s.status.episodes ∧ t.control.reason = s.control.reason ∧
        (t.status.unmarked = true ↔ fault = true ∨ s.writer.image.safety = .clean) ∧
        (s.control.hreq = true ∨ s.monitor.state = .warned →
          t.control.mode = .hold ∧ t.control.awaited = none ∧
          t.writer = { s.writer with state := .idle, pending := false, record := record }) ∧
        (s.control.hreq = false → s.monitor.state = .good →
          t.control.mode = (if s.queue = [] then .closing else .drain) ∧
          t.control.awaited = some ⟨if s.queue = [] then .final else .draining, true⟩ ∧
          t.status.safety = (if s.queue = [] then .clean else .draining) ∧
          t.writer.state = .writing 0#4 ∧ t.writer.image.mode = t.control.mode)) ∧
      (k = .draining → s.control.mode = .drain → s.engine.state = .stopped →
        s.writer.pending = false →
        ∀ body st rest w, s.queue = ⟨body, st⟩ :: rest → headWrite ⟨body, st⟩ w →
        t.writer.record = record ∧ t.writer.state = .idle ∧ t.control.awaited = none ∧
        t.control.mode = .drain ∧ t.engine.state = .writing ∧ t.engine.attempts = 0 ∧
        t.engine.rampTimer = some (t.now + (if s.config.rampSelect then 2000 else 500)) ∧
        t.queue = ⟨body, .draining⟩ :: rest ∧ t.status.unmarked = unmarked ∧
        t.port.access.map (fun acc => (acc.requester, acc.op)) =
          some (.drain, .write w.addr w.byte)) ∧
      (k = .final → s.control.mode = .closing →
        t.control.awaited = none ∧ t.control.mode = .normal ∧ t.heldPin = false ∧
        t.status.causes.getLsbD 1 = true ∧ t.status.unmarked = unmarked ∧
        t.status.safety = s.status.safety ∧
        (s.writer.pending = false → t.writer.record = record ∧ t.writer.state = .idle) ∧
        (s.writer.pending = true → t.writer.state = .writing 0#4 ∧ t.writer.record = .started ∧
          t.writer.pending = false ∧ t.writer.image.mode = .normal ∧
          t.writer.image.causes.getLsbD 1 = true ∧
          t.writer.image.safety = s.status.safety ∧
          t.port.access.map (fun acc => (acc.requester, acc.op)) =
            some (.status, .write 0xFFF00#20 (t.writer.image.byte 0#4))))

/-! ## Start-up -/

/-- The read of the sixteenth status-line byte judges the line as Table 10-2 gives and goes on to the
descriptor: LOSS_SUSPECTED but for a valid CLEAN line, FENCE_UNKNOWN for an invalid one, the fence
fields and the record from the line (R162, R163, R147). -/
def Obligations.StartUpAssessesLine : Prop :=
  ∀ (s : State) (a : Addr) (b : Byte) (line : List Byte), s.control.mode = .startup →
    s.port.access = some ⟨.load, .read a, .readStrobe false⟩ →
    s.port.waiting = ⟨none, none, none, none⟩ → s.queue = [] →
    s.sequencer.step = .statusRead → s.sequencer.bytes.length = 15 →
    memRead s.memory a = some b → line = s.sequencer.bytes ++ [b] →
    ∃ t, exec .readStrobeEnd s = .next t ∧ t.sequencer = ⟨.descriptorLoad, line⟩ ∧
      t.descriptor.reading = true ∧ t.descriptor.bytes = [] ∧
      t.port.access.map (fun acc => (acc.requester, acc.op)) =
        some (.load, .read 0xFFF20#20) ∧
      t.memory = s.memory ∧
      (((line.map BitVec.toNat).sum % 256 = 0 ∧ (line.getD 0 0#8) &&& 0x18#8 = 0#8 →
        t.status.causes = s.status.causes ∧ t.status.fenceUnknown = false ∧
        t.status.lastTag = line.getD 5 0#8 ∧
        t.status.fenceLoss = (line.getD 2 0#8).getLsbD 0 ∧ t.engine.openLoss = false ∧
        t.writer.record = .empty)) ∧
      ((line.map BitVec.toNat).sum % 256 = 0 ∧ (line.getD 0 0#8) &&& 0x18#8 ≠ 0#8 →
        t.status.causes = s.status.causes ||| 0x40#8 ∧ t.status.fenceUnknown = false ∧
        t.status.lastTag = line.getD 5 0#8 ∧
        t.status.fenceLoss = (line.getD 2 0#8).getLsbD 0 ∧
        t.engine.openLoss = (line.getD 2 0#8).getLsbD 2 ∧
        ∃ f, t.writer.record = .completed f ∧ f ≠ .clean ∧
          f.code = (line.getD 0 0#8).extractLsb' 3 2) ∧
      ((line.map BitVec.toNat).sum % 256 ≠ 0 →
        t.status.causes = s.status.causes ||| 0x40#8 ∧ t.status.fenceUnknown = true ∧
        t.status.lastTag = 0#8 ∧ t.status.fenceLoss = false ∧ t.engine.openLoss = false ∧
        t.writer.record = .empty)

/-- The read of the forty-ninth descriptor byte at start-up applies the descriptor, or the default
configuration with CONFIG_REJECTED, and takes the first sample, which sets the monitor state directly. A
GOOD or MARGINAL one begins the start-up write with CLEAN or AT_RISK, its image in STARTUP; a LOW one
enters HOLD, with reason AUTO, an episode, UNMARKED by the record, and no status write (R153, R158, R164,
R165, R166, R72, R71, R148). Instants are on the model's clock (log 3). That FFF00H is unknown from the
start-up write's strobe on is the model's reading (log 6), and so is that the first sample reads VSEN as
the pins hold it (log 12). -/
def Obligations.StartLoadEndsWithFirstSample : Prop :=
  ∀ (s : State) (a : Addr) (v : Byte), s.control.mode = .startup →
    s.sequencer.step = .descriptorLoad → s.descriptor.reading = true →
    s.descriptor.bytes.length = 48 → s.port.access = some ⟨.load, .read a, .readStrobe false⟩ →
    s.port.waiting = ⟨none, none, none, none⟩ → memRead s.memory a = some v → s.queue = [] →
    s.monitor.state = .good → s.writer.state = .idle → s.host.access = none →
    let bs := s.descriptor.bytes ++ [v]
    let valid := descriptorValid bs
    let cfg := if valid then descriptorConfig bs else Configuration.default
    let cls := classOf cfg.warningCode s.pins.vsen
    ∃ t, exec .readStrobeEnd s = .next t ∧
      t.descriptor = ⟨some cfg, if valid then bs.getD 2 0#8 else 0#8, false, bs, none⟩ ∧
      (valid = false → t.status.causes.getLsbD 7 = true) ∧
      t.engine.lastClass = cls ∧ t.monitor.warnRun = 0 ∧ t.monitor.recoveryRun = 0 ∧
      t.monitor.state = (if cls = .good then .good else .warned) ∧
      t.monitor.timer = some ⟨s.now, s.now + (if cls = .low then 1000 else 125)⟩ ∧
      t.memory = (if cls = .low ∨ s.pins.mrdy = false then s.memory
        else memForget s.memory 0xFFF00#20) ∧
      (cls ≠ .low → t.control.mode = .startup ∧ t.sequencer.step = .startWrite ∧
        t.status.safety = (if cls = .good then .clean else .atRisk) ∧
        t.status.episodes = s.status.episodes ∧
        t.writer.state = .writing 0#4 ∧ t.writer.record = .started ∧
        t.writer.image.mode = .startup ∧ t.writer.image.safety = t.status.safety ∧
        t.writer.image.generation = t.descriptor.generation ∧
        t.port.access.map (fun acc => (acc.requester, acc.op)) =
          some (.status, .write 0xFFF00#20 (t.writer.image.byte 0#4))) ∧
      (cls = .low → t.control = ⟨.hold, .auto, s.control.hreq, none⟩ ∧ t.sequencer.step = .ended ∧
        t.heldPin = true ∧ t.status.safety = .held ∧ t.status.causes.getLsbD 0 = true ∧
        t.status.episodes = s.status.episodes + 1#8 ∧
        (t.status.unmarked = false ↔ ∃ f, f ≠ .clean ∧ s.writer.record = .completed f) ∧
        t.writer = { s.writer with pending := false } ∧ t.port.access = none)

/-- A byte of a reload's reading, and its end. Before the forty-ninth byte the next LOAD read is made at
once. At the forty-ninth a valid descriptor is applied whole, with the monitor's runs cleared, and an
invalid one is rejected with CONFIG_REJECTED and nothing else; then a held notice that differs from the
applied generation starts a new reload, and otherwise the reload ends. At the end a write in a RELOAD wait
is decided anew, under the mode and the configuration then in force, and at a new reload it stays. The
byte that a LOAD read brings is one the queue does not hold (R155, R156, R157, R158, R159, R124). Instants
are on the model's clock (log 3). -/
def Obligations.ReloadEndsWithConfiguration : Prop :=
  ∀ (s : State) (a : Addr) (v : Byte), s.sequencer.step = .ended → s.descriptor.reading = true →
    s.port.access = some ⟨.load, .read a, .readStrobe false⟩ →
    s.port.waiting = ⟨none, none, none, none⟩ → memRead s.memory a = some v →
    let bs := s.descriptor.bytes ++ [v]
    let valid := descriptorValid bs
    let gen : Byte := if valid then bs.getD 2 0#8 else s.descriptor.generation
    let reads (addr : Addr) : MemoryPort :=
      ⟨some ⟨.load, .read addr, if s.pins.mrdy then .readStrobe false else .readyWait⟩,
        ⟨none, none, none, none⟩, s.port.marker, some (s.now + 2000)⟩
    let judged : State := { s with
      monitor := if valid then { s.monitor with warnRun := 0, recoveryRun := 0 } else s.monitor
      status := if valid then s.status
        else { s.status with causes := s.status.causes ||| 0x80#8 } }
    let applied := if valid then some (descriptorConfig bs) else s.descriptor.applied
    let ends : Prop := s.descriptor.held = none ∨ s.descriptor.held = some gen
    (s.descriptor.bytes.length < 48 →
      overlay s.queue (0xFFF20#20 + BitVec.ofNat 20 bs.length) = none →
      exec .readStrobeEnd s = .next { s with
        descriptor := { s.descriptor with bytes := bs }
        port := reads (0xFFF20#20 + BitVec.ofNat 20 bs.length) }) ∧
    (s.descriptor.bytes.length = 48 → ends → s.host.access = none →
      exec .readStrobeEnd s = .next { judged with
        descriptor := ⟨applied, gen, false, bs, none⟩
        port := ⟨none, ⟨none, none, none, none⟩, s.port.marker, none⟩ }) ∧
    (s.descriptor.bytes.length = 48 → ¬ ends → overlay s.queue 0xFFF20#20 = none →
      exec .readStrobeEnd s = .next { judged with
        descriptor := ⟨applied, gen, true, [], none⟩
        port := reads 0xFFF20#20 }) ∧
    (s.descriptor.bytes.length = 48 → ends → ∀ (a' : Addr) (b : Byte) (p : Policy),
      s.host.access = some ⟨.write a' b, .waiting .reload, false⟩ → inStatusLine a' = false →
      s.host.orphan = false →
      overlay s.queue (0xFFF20#20 + BitVec.ofNat 20 s.descriptor.bytes.length) = none →
      p = (if inWindow a' then .defer
        else ((applied.getD Configuration.default).lookup (lineOf a')).1) →
      ∃ t, exec .readStrobeEnd s = .next t ∧ t.descriptor.applied = applied ∧
        (s.control.mode ≠ .startup → p = .readonly →
          t.host = hostAt s.host (.write a' b) (.answered .err) ∧
          t.status = rejectedStatus judged.status) ∧
        (s.control.mode = .normal → p ≠ .readonly →
          t.host = hostAt s.host (.write a' b) .onPort ∧
          t.port.access.map (fun acc => (acc.requester, acc.op)) = some (.host, .write a' b)) ∧
        (s.control.mode = .closing → p ≠ .readonly →
          t.host = hostAt s.host (.write a' b) (.waiting .closing)) ∧
        (s.control.mode = .entering ∨ s.control.mode = .hold → s.queue = [] →
          s.engine.state = .stopped → p ≠ .readonly →
          decidedHeld { judged with descriptor := t.descriptor } t a' b))

/-- The end of the start-up write, done or faulted, chooses the first mode by the recorded HREQ level:
NORMAL when it is low, and when it is high ENTERING with a FORCED episode and the HELD write requested,
begun at once with the writer IDLE. A write left pending by a WARN or CLEAR begins first, its image in
STARTUP, and the HELD write then waits behind it (R168, R144, R149). The flag of the awaited marker is the
model's (log 18). -/
def Obligations.StartUpChoosesFirstMode : Prop :=
  ∀ (s : State) (n : Offset) (op : BusOp) (ph : Phase) (fault : Bool), s.control.mode = .startup →
    s.sequencer.step = .startWrite → s.port.access = some ⟨.status, op, ph⟩ → op.isRead = false →
    ph = .busyWatch ∨ (fault = true ∧ ph = .readyWait) →
    s.port.waiting = ⟨none, none, none, none⟩ →
    s.port.timeout ≠ none → s.writer.state = .writing n → s.writer.abandoned = false →
    (fault = false → n = 15#4) → s.control.awaited = none → s.engine.awaited = .nothing →
    s.host.access = none →
    ∃ t, exec (if fault then .writeTimeout else .mrdyReady) s = .next t ∧
      t.sequencer.step = .ended ∧ (fault = true → t.status.causes.getLsbD 5 = true) ∧
      t.status.unmarked = (if fault = true ∨ s.writer.image.safety = .clean
        then s.status.unmarked else false) ∧
      t.heldPin = s.control.hreq ∧
      (s.control.hreq = false → t.control = { s.control with mode := .normal } ∧
        t.status.episodes = s.status.episodes ∧ t.status.safety = s.status.safety ∧
        (s.writer.pending = false → t.writer.state = .idle ∧
          t.writer.record = (if fault then .faulted else .completed s.writer.image.safety)) ∧
        (s.writer.pending = true → t.writer.pending = false)) ∧
      (s.control.hreq = true →
        t.control = ⟨.entering, .forced, true, some ⟨.held, !s.writer.pending⟩⟩ ∧
        t.status.episodes = s.status.episodes + 1#8 ∧ t.status.causes.getLsbD 0 = true ∧
        t.status.safety = .held ∧ t.writer.pending = s.writer.pending ∧
        (s.writer.pending = false → t.writer.state = .writing 0#4 ∧
          t.writer.image.mode = .entering ∧ t.writer.image.safety = .held)) ∧
      (s.writer.pending = true → t.writer.state = .writing 0#4 ∧ t.writer.record = .started ∧
        t.writer.image.mode = .startup ∧ t.writer.image.safety = s.status.safety)

/-! ## Tables and layouts -/

/-- The region lookup gives the policy and merge flag of the lowest-numbered valid row that contains the
line, bounds inclusive, else the default; under the default configuration every line is DEFER with
merging off (R30). -/
def Obligations.RegionLookupRule : Prop :=
  ∀ (c : Configuration) (line : Line),
    let holds (r : Row) : Prop := r.valid = true ∧ r.base ≤ line ∧ line ≤ r.limit
    (∀ (before after : List Row) (r : Row), c.rows = before ++ r :: after →
      (∀ x ∈ before, ¬ holds x) → holds r → c.lookup line = (r.policy, r.merge)) ∧
    ((∀ x ∈ c.rows, ¬ holds x) → c.lookup line = (c.defaultPolicy, c.defaultMerge)) ∧
    Configuration.default.lookup line = (.defer, false)

/-- The overlay lookup answers with the byte of the youngest holder, or a miss where no entry holds the
address: a DATA entry of the line with the offset present, or a FENCE entry for FFF11H (R23, R3). -/
def Obligations.OverlayIsYoungestHolder : Prop :=
  ∀ (q : List Entry) (a : Addr),
    let holds (e : Entry) (b : Byte) : Prop :=
      match e.body with
      | .data line bytes => line = lineOf a ∧ cellGet bytes (offsetOf a) = some b
      | .fence tag => a = 0xFFF11#20 ∧ tag = b
    (∀ b, overlay q a = some b ↔ ∃ older e younger, q = older ++ e :: younger ∧ holds e b ∧
      ∀ x ∈ younger, ∀ v, ¬ holds x v) ∧
    (overlay q a = none ↔ ∀ e ∈ q, ∀ b, ¬ holds e b)

/-- A descriptor is valid exactly when its signature, its sum, its recovery filter, its reserved bits and
the bounds of its valid rows are as the five conditions of R151 give; and a valid one is turned into a
configuration field by field, with its eight rows and its generation, as R152 and Tables 9-2 and 9-3
give. -/
def Obligations.DescriptorValidityAndConfiguration : Prop :=
  ∀ bs : List Byte, bs.length = 49 →
    let at' (n : Nat) : Byte := bs.getD n 0#8
    let policy (b : Byte) : Policy :=
      [Policy.defer, .block, .discard, .readonly].getD (b.toNat % 4) .defer
    let cfg := descriptorConfig bs
    (descriptorValid bs = true ↔
      (at' 0 = 0x6C#8 ∧ at' 1 = 0x3A#8) ∧
      (bs.map BitVec.toNat).sum % 256 = 0 ∧
      at' 5 >>> 4 ≠ 0#8 ∧
      (at' 3 &&& 0xF8#8 = 0#8 ∧ at' 4 &&& 0xF0#8 = 0#8 ∧ at' 5 &&& 0x0C#8 = 0#8 ∧
        ∀ n < 8, at' (8 + 5 * n) &&& 0x78#8 = 0#8) ∧
      ∀ n < 8, at' (8 + 5 * n) &&& 0x80#8 ≠ 0#8 →
        256 * (at' (9 + 5 * n)).toNat + (at' (10 + 5 * n)).toNat ≤
          256 * (at' (11 + 5 * n)).toNat + (at' (12 + 5 * n)).toNat) ∧
    cfg.defaultPolicy = policy (at' 3) ∧ cfg.defaultMerge = (at' 3).getLsbD 2 ∧
    cfg.warningCode.toNat = (at' 4).toNat % 8 ∧ cfg.rampSelect = (at' 4).getLsbD 3 ∧
    cfg.warnFilter = (at' 5).toNat % 4 + 1 ∧ cfg.recoveryFilter = (at' 5).toNat / 16 ∧
    cfg.stallLimit = at' 6 ∧ cfg.causeMask = at' 7 ∧ descriptorGeneration bs = at' 2 ∧
    cfg.rows.length = 8 ∧
    ∀ n < 8, ∃ r, cfg.rows[n]? = some r ∧
      r.valid = (at' (8 + 5 * n)).getLsbD 7 ∧ r.policy = policy (at' (8 + 5 * n)) ∧
      r.merge = (at' (8 + 5 * n)).getLsbD 2 ∧
      r.base.toNat = 256 * (at' (9 + 5 * n)).toNat + (at' (10 + 5 * n)).toNat ∧
      r.limit.toNat = 256 * (at' (11 + 5 * n)).toNat + (at' (12 + 5 * n)).toNat

/-- What the loss assessment reads from the 16 bytes of any image is what the image carries: the sum is
00H, and the safety state, last tag, FENCE_LOSS and OPEN_LOSS come back (Table 9-4, R132, R162). -/
def Obligations.ImageReadsBack : Prop :=
  ∀ h : Shadow, h.bytes.length = 16 ∧ statusLineValid h.bytes = true ∧
    lineSafety h.bytes = h.safety ∧ lineTag h.bytes = h.lastTag ∧
    lineFenceLoss h.bytes = h.fenceLoss ∧ lineOpenLoss h.bytes = h.openLoss

/-- ALERT is asserted exactly when a pending cause has its bit set in the applied cause mask, never before
the first apply; WARN is pending exactly while the monitor is WARNED; RST# does not change ALERT, and
an invalid descriptor applies no mask; the default mask is FFH (R137, R135). -/
def Obligations.AlertFollowsMaskedCauses : Prop :=
  ∀ s : State,
    (s.alertPin = true ↔ ∃ cfg k, s.descriptor.applied = some cfg ∧ k < 8 ∧
      s.causes.getLsbD k = true ∧ cfg.causeMask.getLsbD k = true) ∧
    (s.causes.getLsbD 2 = true ↔ s.monitor.state = .warned) ∧
    (∀ t, exec .rstFalling s = .next t → t.alertPin = s.alertPin) ∧
    (descriptorValid s.descriptor.bytes = false →
      (judgeDescriptor s).descriptor = s.descriptor) ∧
    Configuration.default.causeMask = 0xFF#8

end Obligations
end

