-- ==== Sys2Proof/Laws/Frames.lean ====
section
/-! SUPPORT. For each operation up to the dispositions, the fields of State that it leaves as they are. -/

namespace Sys2Proof.Machine

open Sys2Proof

/-- The fields that `reach` leaves as they are. -/
@[simp] theorem reach_frame (due : Nat) (s : State) :
    (s.reach due).pending = s.pending ∧
    (s.reach due).porAsserted = s.porAsserted ∧
    (s.reach due).pins = s.pins ∧
    (s.reach due).host = s.host ∧
    (s.reach due).queue = s.queue ∧
    (s.reach due).control = s.control ∧
    (s.reach due).queueEmptyReports = s.queueEmptyReports ∧
    (s.reach due).monitor = s.monitor ∧
    (s.reach due).engine = s.engine ∧
    (s.reach due).port = s.port ∧
    (s.reach due).status = s.status ∧
    (s.reach due).writer = s.writer ∧
    (s.reach due).descriptor = s.descriptor ∧
    (s.reach due).sequencer = s.sequencer ∧
    (s.reach due).memory = s.memory ∧
    (s.reach due).freeIndex = s.freeIndex := by
  simp [State.reach]

/-- The fields that `State.takeFree` leaves as they are. -/
@[simp] theorem takeFree_frame (s : State) :
    (State.takeFree s).pending = s.pending ∧
    (State.takeFree s).porAsserted = s.porAsserted ∧
    (State.takeFree s).pins = s.pins ∧
    (State.takeFree s).host = s.host ∧
    (State.takeFree s).queue = s.queue ∧
    (State.takeFree s).control = s.control ∧
    (State.takeFree s).queueEmptyReports = s.queueEmptyReports ∧
    (State.takeFree s).monitor = s.monitor ∧
    (State.takeFree s).engine = s.engine ∧
    (State.takeFree s).port = s.port ∧
    (State.takeFree s).status = s.status ∧
    (State.takeFree s).writer = s.writer ∧
    (State.takeFree s).descriptor = s.descriptor ∧
    (State.takeFree s).sequencer = s.sequencer ∧
    (State.takeFree s).memory = s.memory ∧
    (State.takeFree s).now = s.now := by
  simp [State.takeFree]

/-- The fields that `disturbNeighbours` leaves as they are. -/
@[simp] theorem disturbNeighbours_frame (a : Addr) (s : State) :
    (disturbNeighbours a s).pending = s.pending ∧
    (disturbNeighbours a s).porAsserted = s.porAsserted ∧
    (disturbNeighbours a s).pins = s.pins ∧
    (disturbNeighbours a s).host = s.host ∧
    (disturbNeighbours a s).queue = s.queue ∧
    (disturbNeighbours a s).control = s.control ∧
    (disturbNeighbours a s).queueEmptyReports = s.queueEmptyReports ∧
    (disturbNeighbours a s).monitor = s.monitor ∧
    (disturbNeighbours a s).engine = s.engine ∧
    (disturbNeighbours a s).port = s.port ∧
    (disturbNeighbours a s).status = s.status ∧
    (disturbNeighbours a s).writer = s.writer ∧
    (disturbNeighbours a s).descriptor = s.descriptor ∧
    (disturbNeighbours a s).sequencer = s.sequencer ∧
    (disturbNeighbours a s).now = s.now := by
  simp [disturbNeighbours]

/-- The fields that `setCause` leaves as they are. -/
@[simp] theorem setCause_frame (c : Cause) (s : State) :
    (setCause c s).pending = s.pending ∧
    (setCause c s).porAsserted = s.porAsserted ∧
    (setCause c s).pins = s.pins ∧
    (setCause c s).host = s.host ∧
    (setCause c s).queue = s.queue ∧
    (setCause c s).control = s.control ∧
    (setCause c s).queueEmptyReports = s.queueEmptyReports ∧
    (setCause c s).monitor = s.monitor ∧
    (setCause c s).engine = s.engine ∧
    (setCause c s).port = s.port ∧
    (setCause c s).writer = s.writer ∧
    (setCause c s).descriptor = s.descriptor ∧
    (setCause c s).sequencer = s.sequencer ∧
    (setCause c s).memory = s.memory ∧
    (setCause c s).now = s.now ∧
    (setCause c s).freeIndex = s.freeIndex := by
  unfold setCause; simp

/-- The fields that `takeAck` leaves as they are. -/
@[simp] theorem takeAck_frame (b : Byte) (s : State) :
    (takeAck b s).pending = s.pending ∧
    (takeAck b s).porAsserted = s.porAsserted ∧
    (takeAck b s).pins = s.pins ∧
    (takeAck b s).host = s.host ∧
    (takeAck b s).queue = s.queue ∧
    (takeAck b s).control = s.control ∧
    (takeAck b s).queueEmptyReports = s.queueEmptyReports ∧
    (takeAck b s).monitor = s.monitor ∧
    (takeAck b s).engine = s.engine ∧
    (takeAck b s).port = s.port ∧
    (takeAck b s).writer = s.writer ∧
    (takeAck b s).descriptor = s.descriptor ∧
    (takeAck b s).sequencer = s.sequencer ∧
    (takeAck b s).memory = s.memory ∧
    (takeAck b s).now = s.now ∧
    (takeAck b s).freeIndex = s.freeIndex := by
  unfold takeAck; simp

/-- The fields that `countDeferred` leaves as they are. -/
@[simp] theorem countDeferred_frame (s : State) :
    (countDeferred s).pending = s.pending ∧
    (countDeferred s).porAsserted = s.porAsserted ∧
    (countDeferred s).pins = s.pins ∧
    (countDeferred s).host = s.host ∧
    (countDeferred s).queue = s.queue ∧
    (countDeferred s).control = s.control ∧
    (countDeferred s).queueEmptyReports = s.queueEmptyReports ∧
    (countDeferred s).monitor = s.monitor ∧
    (countDeferred s).engine = s.engine ∧
    (countDeferred s).port = s.port ∧
    (countDeferred s).writer = s.writer ∧
    (countDeferred s).descriptor = s.descriptor ∧
    (countDeferred s).sequencer = s.sequencer ∧
    (countDeferred s).memory = s.memory ∧
    (countDeferred s).now = s.now ∧
    (countDeferred s).freeIndex = s.freeIndex := by
  unfold countDeferred; simp

/-- The fields that `countMerged` leaves as they are. -/
@[simp] theorem countMerged_frame (s : State) :
    (countMerged s).pending = s.pending ∧
    (countMerged s).porAsserted = s.porAsserted ∧
    (countMerged s).pins = s.pins ∧
    (countMerged s).host = s.host ∧
    (countMerged s).queue = s.queue ∧
    (countMerged s).control = s.control ∧
    (countMerged s).queueEmptyReports = s.queueEmptyReports ∧
    (countMerged s).monitor = s.monitor ∧
    (countMerged s).engine = s.engine ∧
    (countMerged s).port = s.port ∧
    (countMerged s).writer = s.writer ∧
    (countMerged s).descriptor = s.descriptor ∧
    (countMerged s).sequencer = s.sequencer ∧
    (countMerged s).memory = s.memory ∧
    (countMerged s).now = s.now ∧
    (countMerged s).freeIndex = s.freeIndex := by
  unfold countMerged; simp

/-- The fields that `countDiscarded` leaves as they are. -/
@[simp] theorem countDiscarded_frame (s : State) :
    (countDiscarded s).pending = s.pending ∧
    (countDiscarded s).porAsserted = s.porAsserted ∧
    (countDiscarded s).pins = s.pins ∧
    (countDiscarded s).host = s.host ∧
    (countDiscarded s).queue = s.queue ∧
    (countDiscarded s).control = s.control ∧
    (countDiscarded s).queueEmptyReports = s.queueEmptyReports ∧
    (countDiscarded s).monitor = s.monitor ∧
    (countDiscarded s).engine = s.engine ∧
    (countDiscarded s).port = s.port ∧
    (countDiscarded s).writer = s.writer ∧
    (countDiscarded s).descriptor = s.descriptor ∧
    (countDiscarded s).sequencer = s.sequencer ∧
    (countDiscarded s).memory = s.memory ∧
    (countDiscarded s).now = s.now ∧
    (countDiscarded s).freeIndex = s.freeIndex := by
  unfold countDiscarded; simp

/-- The fields that `countRejected` leaves as they are. -/
@[simp] theorem countRejected_frame (s : State) :
    (countRejected s).pending = s.pending ∧
    (countRejected s).porAsserted = s.porAsserted ∧
    (countRejected s).pins = s.pins ∧
    (countRejected s).host = s.host ∧
    (countRejected s).queue = s.queue ∧
    (countRejected s).control = s.control ∧
    (countRejected s).queueEmptyReports = s.queueEmptyReports ∧
    (countRejected s).monitor = s.monitor ∧
    (countRejected s).engine = s.engine ∧
    (countRejected s).port = s.port ∧
    (countRejected s).writer = s.writer ∧
    (countRejected s).descriptor = s.descriptor ∧
    (countRejected s).sequencer = s.sequencer ∧
    (countRejected s).memory = s.memory ∧
    (countRejected s).now = s.now ∧
    (countRejected s).freeIndex = s.freeIndex := by
  unfold countRejected; simp

/-- The fields that `countDropped` leaves as they are. -/
@[simp] theorem countDropped_frame (s : State) :
    (countDropped s).pending = s.pending ∧
    (countDropped s).porAsserted = s.porAsserted ∧
    (countDropped s).pins = s.pins ∧
    (countDropped s).host = s.host ∧
    (countDropped s).queue = s.queue ∧
    (countDropped s).control = s.control ∧
    (countDropped s).queueEmptyReports = s.queueEmptyReports ∧
    (countDropped s).monitor = s.monitor ∧
    (countDropped s).engine = s.engine ∧
    (countDropped s).port = s.port ∧
    (countDropped s).writer = s.writer ∧
    (countDropped s).descriptor = s.descriptor ∧
    (countDropped s).sequencer = s.sequencer ∧
    (countDropped s).memory = s.memory ∧
    (countDropped s).now = s.now ∧
    (countDropped s).freeIndex = s.freeIndex := by
  unfold countDropped; simp

/-- The fields that `countEpisode` leaves as they are. -/
@[simp] theorem countEpisode_frame (s : State) :
    (countEpisode s).pending = s.pending ∧
    (countEpisode s).porAsserted = s.porAsserted ∧
    (countEpisode s).pins = s.pins ∧
    (countEpisode s).host = s.host ∧
    (countEpisode s).queue = s.queue ∧
    (countEpisode s).control = s.control ∧
    (countEpisode s).queueEmptyReports = s.queueEmptyReports ∧
    (countEpisode s).monitor = s.monitor ∧
    (countEpisode s).engine = s.engine ∧
    (countEpisode s).port = s.port ∧
    (countEpisode s).writer = s.writer ∧
    (countEpisode s).descriptor = s.descriptor ∧
    (countEpisode s).sequencer = s.sequencer ∧
    (countEpisode s).memory = s.memory ∧
    (countEpisode s).now = s.now ∧
    (countEpisode s).freeIndex = s.freeIndex := by
  unfold countEpisode; simp

/-- The fields that `takeSnapshot` leaves as they are. -/
@[simp] theorem takeSnapshot_frame (s : State) :
    (takeSnapshot s).pending = s.pending ∧
    (takeSnapshot s).porAsserted = s.porAsserted ∧
    (takeSnapshot s).pins = s.pins ∧
    (takeSnapshot s).host = s.host ∧
    (takeSnapshot s).queue = s.queue ∧
    (takeSnapshot s).control = s.control ∧
    (takeSnapshot s).queueEmptyReports = s.queueEmptyReports ∧
    (takeSnapshot s).monitor = s.monitor ∧
    (takeSnapshot s).engine = s.engine ∧
    (takeSnapshot s).port = s.port ∧
    (takeSnapshot s).writer = s.writer ∧
    (takeSnapshot s).descriptor = s.descriptor ∧
    (takeSnapshot s).sequencer = s.sequencer ∧
    (takeSnapshot s).memory = s.memory ∧
    (takeSnapshot s).now = s.now ∧
    (takeSnapshot s).freeIndex = s.freeIndex := by
  unfold takeSnapshot; simp

/-- The fields that `completeFence` leaves as they are. -/
@[simp] theorem completeFence_frame (tag : Byte) (s : State) :
    (completeFence tag s).pending = s.pending ∧
    (completeFence tag s).porAsserted = s.porAsserted ∧
    (completeFence tag s).pins = s.pins ∧
    (completeFence tag s).host = s.host ∧
    (completeFence tag s).queue = s.queue ∧
    (completeFence tag s).control = s.control ∧
    (completeFence tag s).queueEmptyReports = s.queueEmptyReports ∧
    (completeFence tag s).monitor = s.monitor ∧
    (completeFence tag s).port = s.port ∧
    (completeFence tag s).writer = s.writer ∧
    (completeFence tag s).descriptor = s.descriptor ∧
    (completeFence tag s).sequencer = s.sequencer ∧
    (completeFence tag s).memory = s.memory ∧
    (completeFence tag s).now = s.now ∧
    (completeFence tag s).freeIndex = s.freeIndex := by
  unfold completeFence; simp

/-- The fields that `determineUnmarked` leaves as they are. -/
@[simp] theorem determineUnmarked_frame (s : State) :
    (determineUnmarked s).pending = s.pending ∧
    (determineUnmarked s).porAsserted = s.porAsserted ∧
    (determineUnmarked s).pins = s.pins ∧
    (determineUnmarked s).host = s.host ∧
    (determineUnmarked s).queue = s.queue ∧
    (determineUnmarked s).control = s.control ∧
    (determineUnmarked s).queueEmptyReports = s.queueEmptyReports ∧
    (determineUnmarked s).monitor = s.monitor ∧
    (determineUnmarked s).engine = s.engine ∧
    (determineUnmarked s).port = s.port ∧
    (determineUnmarked s).writer = s.writer ∧
    (determineUnmarked s).descriptor = s.descriptor ∧
    (determineUnmarked s).sequencer = s.sequencer ∧
    (determineUnmarked s).memory = s.memory ∧
    (determineUnmarked s).now = s.now ∧
    (determineUnmarked s).freeIndex = s.freeIndex := by
  unfold determineUnmarked; simp

/-- The fields that `enterStrobe` leaves as they are. -/
@[simp] theorem enterStrobe_frame (acc : PortAccess) (busy : Bool) (s : State) :
    (enterStrobe acc busy s).pending = s.pending ∧
    (enterStrobe acc busy s).porAsserted = s.porAsserted ∧
    (enterStrobe acc busy s).pins = s.pins ∧
    (enterStrobe acc busy s).host = s.host ∧
    (enterStrobe acc busy s).queue = s.queue ∧
    (enterStrobe acc busy s).control = s.control ∧
    (enterStrobe acc busy s).queueEmptyReports = s.queueEmptyReports ∧
    (enterStrobe acc busy s).monitor = s.monitor ∧
    (enterStrobe acc busy s).engine = s.engine ∧
    (enterStrobe acc busy s).status = s.status ∧
    (enterStrobe acc busy s).writer = s.writer ∧
    (enterStrobe acc busy s).descriptor = s.descriptor ∧
    (enterStrobe acc busy s).sequencer = s.sequencer ∧
    (enterStrobe acc busy s).now = s.now ∧
    (enterStrobe acc busy s).freeIndex = s.freeIndex := by
  unfold enterStrobe
  try dsimp only
  (repeat' split) <;> simp

/-- The fields that `grant` leaves as they are. -/
@[simp] theorem grant_frame (r : Requester) (op : BusOp) (s : State) :
    (grant r op s).pending = s.pending ∧
    (grant r op s).porAsserted = s.porAsserted ∧
    (grant r op s).pins = s.pins ∧
    (grant r op s).host = s.host ∧
    (grant r op s).queue = s.queue ∧
    (grant r op s).control = s.control ∧
    (grant r op s).queueEmptyReports = s.queueEmptyReports ∧
    (grant r op s).monitor = s.monitor ∧
    (grant r op s).engine = s.engine ∧
    (grant r op s).status = s.status ∧
    (grant r op s).writer = s.writer ∧
    (grant r op s).descriptor = s.descriptor ∧
    (grant r op s).sequencer = s.sequencer ∧
    (grant r op s).now = s.now ∧
    (grant r op s).freeIndex = s.freeIndex := by
  unfold grant
  try dsimp only
  (repeat' split) <;> simp

/-- The fields that `decideGrant` leaves as they are. -/
@[simp] theorem decideGrant_frame (s : State) :
    (decideGrant s).pending = s.pending ∧
    (decideGrant s).porAsserted = s.porAsserted ∧
    (decideGrant s).pins = s.pins ∧
    (decideGrant s).host = s.host ∧
    (decideGrant s).queue = s.queue ∧
    (decideGrant s).control = s.control ∧
    (decideGrant s).queueEmptyReports = s.queueEmptyReports ∧
    (decideGrant s).monitor = s.monitor ∧
    (decideGrant s).engine = s.engine ∧
    (decideGrant s).status = s.status ∧
    (decideGrant s).writer = s.writer ∧
    (decideGrant s).descriptor = s.descriptor ∧
    (decideGrant s).sequencer = s.sequencer ∧
    (decideGrant s).now = s.now ∧
    (decideGrant s).freeIndex = s.freeIndex := by
  unfold decideGrant
  try dsimp only
  (repeat' split) <;> simp

/-- The fields that `portRequest` leaves as they are. -/
@[simp] theorem portRequest_frame (r : Requester) (op : BusOp) (s : State) :
    (portRequest r op s).pending = s.pending ∧
    (portRequest r op s).porAsserted = s.porAsserted ∧
    (portRequest r op s).pins = s.pins ∧
    (portRequest r op s).host = s.host ∧
    (portRequest r op s).queue = s.queue ∧
    (portRequest r op s).control = s.control ∧
    (portRequest r op s).queueEmptyReports = s.queueEmptyReports ∧
    (portRequest r op s).monitor = s.monitor ∧
    (portRequest r op s).engine = s.engine ∧
    (portRequest r op s).status = s.status ∧
    (portRequest r op s).writer = s.writer ∧
    (portRequest r op s).descriptor = s.descriptor ∧
    (portRequest r op s).sequencer = s.sequencer ∧
    (portRequest r op s).now = s.now ∧
    (portRequest r op s).freeIndex = s.freeIndex := by
  unfold portRequest; simp

/-- The fields that `portWithdraw` leaves as they are. -/
@[simp] theorem portWithdraw_frame (r : Requester) (s : State) :
    (portWithdraw r s).pending = s.pending ∧
    (portWithdraw r s).porAsserted = s.porAsserted ∧
    (portWithdraw r s).pins = s.pins ∧
    (portWithdraw r s).host = s.host ∧
    (portWithdraw r s).queue = s.queue ∧
    (portWithdraw r s).control = s.control ∧
    (portWithdraw r s).queueEmptyReports = s.queueEmptyReports ∧
    (portWithdraw r s).monitor = s.monitor ∧
    (portWithdraw r s).engine = s.engine ∧
    (portWithdraw r s).status = s.status ∧
    (portWithdraw r s).writer = s.writer ∧
    (portWithdraw r s).descriptor = s.descriptor ∧
    (portWithdraw r s).sequencer = s.sequencer ∧
    (portWithdraw r s).memory = s.memory ∧
    (portWithdraw r s).now = s.now ∧
    (portWithdraw r s).freeIndex = s.freeIndex := by
  unfold portWithdraw; simp

/-- The fields that `arriveLate` leaves as they are. -/
@[simp] theorem arriveLate_frame (w : Waiting) (rs : List Requester) (s : State) :
    (arriveLate w rs s).pending = s.pending ∧
    (arriveLate w rs s).porAsserted = s.porAsserted ∧
    (arriveLate w rs s).pins = s.pins ∧
    (arriveLate w rs s).host = s.host ∧
    (arriveLate w rs s).queue = s.queue ∧
    (arriveLate w rs s).control = s.control ∧
    (arriveLate w rs s).queueEmptyReports = s.queueEmptyReports ∧
    (arriveLate w rs s).monitor = s.monitor ∧
    (arriveLate w rs s).engine = s.engine ∧
    (arriveLate w rs s).status = s.status ∧
    (arriveLate w rs s).writer = s.writer ∧
    (arriveLate w rs s).descriptor = s.descriptor ∧
    (arriveLate w rs s).sequencer = s.sequencer ∧
    (arriveLate w rs s).now = s.now ∧
    (arriveLate w rs s).freeIndex = s.freeIndex := by
  induction rs generalizing s with
  | nil => simp [arriveLate]
  | cons r rs ih => unfold arriveLate; split <;> simp [ih]

/-- The fields that `decideAtEnd` leaves as they are. -/
@[simp] theorem decideAtEnd_frame (own : Requester) (before : Waiting) (s : State) :
    (decideAtEnd own before s).pending = s.pending ∧
    (decideAtEnd own before s).porAsserted = s.porAsserted ∧
    (decideAtEnd own before s).pins = s.pins ∧
    (decideAtEnd own before s).host = s.host ∧
    (decideAtEnd own before s).queue = s.queue ∧
    (decideAtEnd own before s).control = s.control ∧
    (decideAtEnd own before s).queueEmptyReports = s.queueEmptyReports ∧
    (decideAtEnd own before s).monitor = s.monitor ∧
    (decideAtEnd own before s).engine = s.engine ∧
    (decideAtEnd own before s).status = s.status ∧
    (decideAtEnd own before s).writer = s.writer ∧
    (decideAtEnd own before s).descriptor = s.descriptor ∧
    (decideAtEnd own before s).sequencer = s.sequencer ∧
    (decideAtEnd own before s).now = s.now := by
  unfold decideAtEnd
  try dsimp only
  (repeat' split) <;> simp

/-- The fields that `reportBegun` leaves as they are. -/
@[simp] theorem reportBegun_frame (s : State) :
    (reportBegun s).pending = s.pending ∧
    (reportBegun s).porAsserted = s.porAsserted ∧
    (reportBegun s).pins = s.pins ∧
    (reportBegun s).host = s.host ∧
    (reportBegun s).queue = s.queue ∧
    (reportBegun s).queueEmptyReports = s.queueEmptyReports ∧
    (reportBegun s).monitor = s.monitor ∧
    (reportBegun s).port = s.port ∧
    (reportBegun s).status = s.status ∧
    (reportBegun s).writer = s.writer ∧
    (reportBegun s).descriptor = s.descriptor ∧
    (reportBegun s).sequencer = s.sequencer ∧
    (reportBegun s).memory = s.memory ∧
    (reportBegun s).now = s.now ∧
    (reportBegun s).freeIndex = s.freeIndex := by
  unfold reportBegun; simp

/-- The fields that `beginStatusWrite` leaves as they are. -/
@[simp] theorem beginStatusWrite_frame (s : State) :
    (beginStatusWrite s).pending = s.pending ∧
    (beginStatusWrite s).porAsserted = s.porAsserted ∧
    (beginStatusWrite s).pins = s.pins ∧
    (beginStatusWrite s).host = s.host ∧
    (beginStatusWrite s).queue = s.queue ∧
    (beginStatusWrite s).queueEmptyReports = s.queueEmptyReports ∧
    (beginStatusWrite s).monitor = s.monitor ∧
    (beginStatusWrite s).status = s.status ∧
    (beginStatusWrite s).descriptor = s.descriptor ∧
    (beginStatusWrite s).sequencer = s.sequencer ∧
    (beginStatusWrite s).now = s.now ∧
    (beginStatusWrite s).freeIndex = s.freeIndex := by
  unfold beginStatusWrite; simp

/-- The fields that `requestStatusWrite` leaves as they are. -/
@[simp] theorem requestStatusWrite_frame (s : State) :
    (requestStatusWrite s).pending = s.pending ∧
    (requestStatusWrite s).porAsserted = s.porAsserted ∧
    (requestStatusWrite s).pins = s.pins ∧
    (requestStatusWrite s).host = s.host ∧
    (requestStatusWrite s).queue = s.queue ∧
    (requestStatusWrite s).queueEmptyReports = s.queueEmptyReports ∧
    (requestStatusWrite s).monitor = s.monitor ∧
    (requestStatusWrite s).status = s.status ∧
    (requestStatusWrite s).descriptor = s.descriptor ∧
    (requestStatusWrite s).sequencer = s.sequencer ∧
    (requestStatusWrite s).now = s.now ∧
    (requestStatusWrite s).freeIndex = s.freeIndex := by
  unfold requestStatusWrite
  try dsimp only
  (repeat' split) <;> simp

/-- The fields that `abandonStatusWrite` leaves as they are. -/
@[simp] theorem abandonStatusWrite_frame (s : State) :
    (abandonStatusWrite s).pending = s.pending ∧
    (abandonStatusWrite s).porAsserted = s.porAsserted ∧
    (abandonStatusWrite s).pins = s.pins ∧
    (abandonStatusWrite s).host = s.host ∧
    (abandonStatusWrite s).queue = s.queue ∧
    (abandonStatusWrite s).control = s.control ∧
    (abandonStatusWrite s).queueEmptyReports = s.queueEmptyReports ∧
    (abandonStatusWrite s).monitor = s.monitor ∧
    (abandonStatusWrite s).engine = s.engine ∧
    (abandonStatusWrite s).status = s.status ∧
    (abandonStatusWrite s).descriptor = s.descriptor ∧
    (abandonStatusWrite s).sequencer = s.sequencer ∧
    (abandonStatusWrite s).memory = s.memory ∧
    (abandonStatusWrite s).now = s.now ∧
    (abandonStatusWrite s).freeIndex = s.freeIndex := by
  unfold abandonStatusWrite
  try dsimp only
  (repeat' split) <;> simp

/-- The fields that `claimHead` leaves as they are. -/
@[simp] theorem claimHead_frame (s : State) :
    (claimHead s).pending = s.pending ∧
    (claimHead s).porAsserted = s.porAsserted ∧
    (claimHead s).pins = s.pins ∧
    (claimHead s).host = s.host ∧
    (claimHead s).control = s.control ∧
    (claimHead s).queueEmptyReports = s.queueEmptyReports ∧
    (claimHead s).monitor = s.monitor ∧
    (claimHead s).status = s.status ∧
    (claimHead s).writer = s.writer ∧
    (claimHead s).descriptor = s.descriptor ∧
    (claimHead s).sequencer = s.sequencer ∧
    (claimHead s).now = s.now ∧
    (claimHead s).freeIndex = s.freeIndex := by
  unfold claimHead
  try dsimp only
  (repeat' split) <;> simp

/-- The fields that `endWait` leaves as they are. -/
@[simp] theorem endWait_frame (s : State) :
    (endWait s).pending = s.pending ∧
    (endWait s).porAsserted = s.porAsserted ∧
    (endWait s).pins = s.pins ∧
    (endWait s).host = s.host ∧
    (endWait s).control = s.control ∧
    (endWait s).queueEmptyReports = s.queueEmptyReports ∧
    (endWait s).monitor = s.monitor ∧
    (endWait s).status = s.status ∧
    (endWait s).writer = s.writer ∧
    (endWait s).descriptor = s.descriptor ∧
    (endWait s).sequencer = s.sequencer ∧
    (endWait s).now = s.now ∧
    (endWait s).freeIndex = s.freeIndex := by
  unfold endWait
  try dsimp only
  (repeat' split) <;> simp

/-- The fields that `wakeEngine` leaves as they are. -/
@[simp] theorem wakeEngine_frame (s : State) :
    (wakeEngine s).pending = s.pending ∧
    (wakeEngine s).porAsserted = s.porAsserted ∧
    (wakeEngine s).pins = s.pins ∧
    (wakeEngine s).host = s.host ∧
    (wakeEngine s).control = s.control ∧
    (wakeEngine s).queueEmptyReports = s.queueEmptyReports ∧
    (wakeEngine s).monitor = s.monitor ∧
    (wakeEngine s).status = s.status ∧
    (wakeEngine s).writer = s.writer ∧
    (wakeEngine s).descriptor = s.descriptor ∧
    (wakeEngine s).sequencer = s.sequencer ∧
    (wakeEngine s).now = s.now ∧
    (wakeEngine s).freeIndex = s.freeIndex := by
  unfold wakeEngine
  try dsimp only
  (repeat' split) <;> simp

/-- The fields that `startEngine` leaves as they are. -/
@[simp] theorem startEngine_frame (s : State) :
    (startEngine s).pending = s.pending ∧
    (startEngine s).porAsserted = s.porAsserted ∧
    (startEngine s).pins = s.pins ∧
    (startEngine s).host = s.host ∧
    (startEngine s).control = s.control ∧
    (startEngine s).queueEmptyReports = s.queueEmptyReports ∧
    (startEngine s).monitor = s.monitor ∧
    (startEngine s).status = s.status ∧
    (startEngine s).writer = s.writer ∧
    (startEngine s).descriptor = s.descriptor ∧
    (startEngine s).sequencer = s.sequencer ∧
    (startEngine s).now = s.now ∧
    (startEngine s).freeIndex = s.freeIndex := by
  unfold startEngine
  try dsimp only
  (repeat' split) <;> simp

/-- The fields that `releaseAndStop` leaves as they are. -/
@[simp] theorem releaseAndStop_frame (s : State) :
    (releaseAndStop s).pending = s.pending ∧
    (releaseAndStop s).porAsserted = s.porAsserted ∧
    (releaseAndStop s).pins = s.pins ∧
    (releaseAndStop s).host = s.host ∧
    (releaseAndStop s).control = s.control ∧
    (releaseAndStop s).queueEmptyReports = s.queueEmptyReports ∧
    (releaseAndStop s).monitor = s.monitor ∧
    (releaseAndStop s).port = s.port ∧
    (releaseAndStop s).status = s.status ∧
    (releaseAndStop s).writer = s.writer ∧
    (releaseAndStop s).descriptor = s.descriptor ∧
    (releaseAndStop s).sequencer = s.sequencer ∧
    (releaseAndStop s).memory = s.memory ∧
    (releaseAndStop s).now = s.now ∧
    (releaseAndStop s).freeIndex = s.freeIndex := by
  unfold releaseAndStop; simp

/-- The fields that `stopEngine` leaves as they are. -/
@[simp] theorem stopEngine_frame (s : State) :
    (stopEngine s).pending = s.pending ∧
    (stopEngine s).porAsserted = s.porAsserted ∧
    (stopEngine s).pins = s.pins ∧
    (stopEngine s).host = s.host ∧
    (stopEngine s).control = s.control ∧
    (stopEngine s).queueEmptyReports = s.queueEmptyReports ∧
    (stopEngine s).monitor = s.monitor ∧
    (stopEngine s).status = s.status ∧
    (stopEngine s).writer = s.writer ∧
    (stopEngine s).descriptor = s.descriptor ∧
    (stopEngine s).sequencer = s.sequencer ∧
    (stopEngine s).memory = s.memory ∧
    (stopEngine s).now = s.now ∧
    (stopEngine s).freeIndex = s.freeIndex := by
  unfold stopEngine
  try dsimp only
  (repeat' split) <;> simp

/-- The fields that `engineClass` leaves as they are. -/
@[simp] theorem engineClass_frame (c : SupplyClass) (s : State) :
    (engineClass c s).pending = s.pending ∧
    (engineClass c s).porAsserted = s.porAsserted ∧
    (engineClass c s).pins = s.pins ∧
    (engineClass c s).host = s.host ∧
    (engineClass c s).queue = s.queue ∧
    (engineClass c s).control = s.control ∧
    (engineClass c s).queueEmptyReports = s.queueEmptyReports ∧
    (engineClass c s).monitor = s.monitor ∧
    (engineClass c s).port = s.port ∧
    (engineClass c s).status = s.status ∧
    (engineClass c s).writer = s.writer ∧
    (engineClass c s).descriptor = s.descriptor ∧
    (engineClass c s).sequencer = s.sequencer ∧
    (engineClass c s).memory = s.memory ∧
    (engineClass c s).now = s.now ∧
    (engineClass c s).freeIndex = s.freeIndex := by
  unfold engineClass
  try dsimp only
  (repeat' split) <;> simp

/-- The fields that `rampExpiry` leaves as they are. -/
@[simp] theorem rampExpiry_frame (s : State) :
    (rampExpiry s).pending = s.pending ∧
    (rampExpiry s).porAsserted = s.porAsserted ∧
    (rampExpiry s).pins = s.pins ∧
    (rampExpiry s).host = s.host ∧
    (rampExpiry s).queue = s.queue ∧
    (rampExpiry s).control = s.control ∧
    (rampExpiry s).queueEmptyReports = s.queueEmptyReports ∧
    (rampExpiry s).monitor = s.monitor ∧
    (rampExpiry s).port = s.port ∧
    (rampExpiry s).status = s.status ∧
    (rampExpiry s).writer = s.writer ∧
    (rampExpiry s).descriptor = s.descriptor ∧
    (rampExpiry s).sequencer = s.sequencer ∧
    (rampExpiry s).memory = s.memory ∧
    (rampExpiry s).now = s.now ∧
    (rampExpiry s).freeIndex = s.freeIndex := by
  unfold rampExpiry; simp

/-- The fields that `startGap` leaves as they are. -/
@[simp] theorem startGap_frame (s : State) :
    (startGap s).pending = s.pending ∧
    (startGap s).porAsserted = s.porAsserted ∧
    (startGap s).pins = s.pins ∧
    (startGap s).host = s.host ∧
    (startGap s).control = s.control ∧
    (startGap s).queueEmptyReports = s.queueEmptyReports ∧
    (startGap s).monitor = s.monitor ∧
    (startGap s).status = s.status ∧
    (startGap s).writer = s.writer ∧
    (startGap s).descriptor = s.descriptor ∧
    (startGap s).sequencer = s.sequencer ∧
    (startGap s).now = s.now ∧
    (startGap s).freeIndex = s.freeIndex := by
  unfold startGap; simp

/-- The fields that `reportIfEmpty` leaves as they are. -/
@[simp] theorem reportIfEmpty_frame (e : Bool) (s : State) :
    (reportIfEmpty e s).pending = s.pending ∧
    (reportIfEmpty e s).porAsserted = s.porAsserted ∧
    (reportIfEmpty e s).pins = s.pins ∧
    (reportIfEmpty e s).host = s.host ∧
    (reportIfEmpty e s).queue = s.queue ∧
    (reportIfEmpty e s).control = s.control ∧
    (reportIfEmpty e s).monitor = s.monitor ∧
    (reportIfEmpty e s).engine = s.engine ∧
    (reportIfEmpty e s).port = s.port ∧
    (reportIfEmpty e s).status = s.status ∧
    (reportIfEmpty e s).writer = s.writer ∧
    (reportIfEmpty e s).descriptor = s.descriptor ∧
    (reportIfEmpty e s).sequencer = s.sequencer ∧
    (reportIfEmpty e s).memory = s.memory ∧
    (reportIfEmpty e s).now = s.now ∧
    (reportIfEmpty e s).freeIndex = s.freeIndex := by
  unfold reportIfEmpty
  try dsimp only
  (repeat' split) <;> simp

/-- The fields that `applyConfig` leaves as they are. -/
@[simp] theorem applyConfig_frame (c : Configuration) (g : Byte) (s : State) :
    (applyConfig c g s).pending = s.pending ∧
    (applyConfig c g s).porAsserted = s.porAsserted ∧
    (applyConfig c g s).pins = s.pins ∧
    (applyConfig c g s).host = s.host ∧
    (applyConfig c g s).queue = s.queue ∧
    (applyConfig c g s).control = s.control ∧
    (applyConfig c g s).queueEmptyReports = s.queueEmptyReports ∧
    (applyConfig c g s).engine = s.engine ∧
    (applyConfig c g s).port = s.port ∧
    (applyConfig c g s).status = s.status ∧
    (applyConfig c g s).writer = s.writer ∧
    (applyConfig c g s).sequencer = s.sequencer ∧
    (applyConfig c g s).memory = s.memory ∧
    (applyConfig c g s).now = s.now ∧
    (applyConfig c g s).freeIndex = s.freeIndex := by
  unfold applyConfig; simp

/-- The fields that `judgeDescriptor` leaves as they are. -/
@[simp] theorem judgeDescriptor_frame (s : State) :
    (judgeDescriptor s).pending = s.pending ∧
    (judgeDescriptor s).porAsserted = s.porAsserted ∧
    (judgeDescriptor s).pins = s.pins ∧
    (judgeDescriptor s).host = s.host ∧
    (judgeDescriptor s).queue = s.queue ∧
    (judgeDescriptor s).control = s.control ∧
    (judgeDescriptor s).queueEmptyReports = s.queueEmptyReports ∧
    (judgeDescriptor s).engine = s.engine ∧
    (judgeDescriptor s).port = s.port ∧
    (judgeDescriptor s).writer = s.writer ∧
    (judgeDescriptor s).sequencer = s.sequencer ∧
    (judgeDescriptor s).memory = s.memory ∧
    (judgeDescriptor s).now = s.now ∧
    (judgeDescriptor s).freeIndex = s.freeIndex := by
  unfold judgeDescriptor
  try dsimp only
  (repeat' split) <;> simp

/-- The fields that `advanceReading` leaves as they are. -/
@[simp] theorem advanceReading_frame (s : State) :
    (advanceReading s).pending = s.pending ∧
    (advanceReading s).porAsserted = s.porAsserted ∧
    (advanceReading s).pins = s.pins ∧
    (advanceReading s).host = s.host ∧
    (advanceReading s).queue = s.queue ∧
    (advanceReading s).control = s.control ∧
    (advanceReading s).queueEmptyReports = s.queueEmptyReports ∧
    (advanceReading s).monitor = s.monitor ∧
    (advanceReading s).engine = s.engine ∧
    (advanceReading s).status = s.status ∧
    (advanceReading s).writer = s.writer ∧
    (advanceReading s).sequencer = s.sequencer ∧
    (advanceReading s).now = s.now ∧
    (advanceReading s).freeIndex = s.freeIndex := by
  unfold advanceReading
  try dsimp only
  (repeat' split) <;> simp

/-- The fields that `beginReading` leaves as they are. -/
@[simp] theorem beginReading_frame (s : State) :
    (beginReading s).pending = s.pending ∧
    (beginReading s).porAsserted = s.porAsserted ∧
    (beginReading s).pins = s.pins ∧
    (beginReading s).host = s.host ∧
    (beginReading s).queue = s.queue ∧
    (beginReading s).control = s.control ∧
    (beginReading s).queueEmptyReports = s.queueEmptyReports ∧
    (beginReading s).monitor = s.monitor ∧
    (beginReading s).engine = s.engine ∧
    (beginReading s).status = s.status ∧
    (beginReading s).writer = s.writer ∧
    (beginReading s).sequencer = s.sequencer ∧
    (beginReading s).now = s.now ∧
    (beginReading s).freeIndex = s.freeIndex := by
  unfold beginReading; simp

/-- The fields that `finishReading` leaves as they are. -/
@[simp] theorem finishReading_frame (n : Nat) (s : State) :
    (finishReading n s).pending = s.pending ∧
    (finishReading n s).porAsserted = s.porAsserted ∧
    (finishReading n s).pins = s.pins ∧
    (finishReading n s).host = s.host ∧
    (finishReading n s).queue = s.queue ∧
    (finishReading n s).control = s.control ∧
    (finishReading n s).queueEmptyReports = s.queueEmptyReports ∧
    (finishReading n s).engine = s.engine ∧
    (finishReading n s).writer = s.writer ∧
    (finishReading n s).sequencer = s.sequencer ∧
    (finishReading n s).now = s.now ∧
    (finishReading n s).freeIndex = s.freeIndex := by
  induction n generalizing s with
  | zero => simp [finishReading]
  | succ n ih =>
    unfold finishReading
    dsimp only
    (repeat' split) <;> simp [ih]

/-- The fields that `generationNotice` leaves as they are. -/
@[simp] theorem generationNotice_frame (b : Byte) (s : State) :
    (generationNotice b s).pending = s.pending ∧
    (generationNotice b s).porAsserted = s.porAsserted ∧
    (generationNotice b s).pins = s.pins ∧
    (generationNotice b s).host = s.host ∧
    (generationNotice b s).queue = s.queue ∧
    (generationNotice b s).control = s.control ∧
    (generationNotice b s).queueEmptyReports = s.queueEmptyReports ∧
    (generationNotice b s).engine = s.engine ∧
    (generationNotice b s).writer = s.writer ∧
    (generationNotice b s).sequencer = s.sequencer ∧
    (generationNotice b s).now = s.now ∧
    (generationNotice b s).freeIndex = s.freeIndex := by
  unfold generationNotice
  try dsimp only
  (repeat' split) <;> simp

/-- The fields that `setStage` leaves as they are. -/
@[simp] theorem setStage_frame (st : Stage) (s : State) :
    (setStage st s).pending = s.pending ∧
    (setStage st s).porAsserted = s.porAsserted ∧
    (setStage st s).pins = s.pins ∧
    (setStage st s).queue = s.queue ∧
    (setStage st s).control = s.control ∧
    (setStage st s).queueEmptyReports = s.queueEmptyReports ∧
    (setStage st s).monitor = s.monitor ∧
    (setStage st s).engine = s.engine ∧
    (setStage st s).port = s.port ∧
    (setStage st s).status = s.status ∧
    (setStage st s).writer = s.writer ∧
    (setStage st s).descriptor = s.descriptor ∧
    (setStage st s).sequencer = s.sequencer ∧
    (setStage st s).memory = s.memory ∧
    (setStage st s).now = s.now ∧
    (setStage st s).freeIndex = s.freeIndex := by
  unfold setStage; simp

/-- The fields that `answerHost` leaves as they are. -/
@[simp] theorem answerHost_frame (a : Answer) (s : State) :
    (answerHost a s).pending = s.pending ∧
    (answerHost a s).porAsserted = s.porAsserted ∧
    (answerHost a s).pins = s.pins ∧
    (answerHost a s).queue = s.queue ∧
    (answerHost a s).control = s.control ∧
    (answerHost a s).queueEmptyReports = s.queueEmptyReports ∧
    (answerHost a s).monitor = s.monitor ∧
    (answerHost a s).engine = s.engine ∧
    (answerHost a s).port = s.port ∧
    (answerHost a s).status = s.status ∧
    (answerHost a s).writer = s.writer ∧
    (answerHost a s).descriptor = s.descriptor ∧
    (answerHost a s).sequencer = s.sequencer ∧
    (answerHost a s).memory = s.memory ∧
    (answerHost a s).now = s.now ∧
    (answerHost a s).freeIndex = s.freeIndex := by
  unfold answerHost
  try dsimp only
  (repeat' split) <;> simp

/-- The fields that `rejectWrite` leaves as they are. -/
@[simp] theorem rejectWrite_frame (s : State) :
    (rejectWrite s).pending = s.pending ∧
    (rejectWrite s).porAsserted = s.porAsserted ∧
    (rejectWrite s).pins = s.pins ∧
    (rejectWrite s).queue = s.queue ∧
    (rejectWrite s).control = s.control ∧
    (rejectWrite s).queueEmptyReports = s.queueEmptyReports ∧
    (rejectWrite s).monitor = s.monitor ∧
    (rejectWrite s).engine = s.engine ∧
    (rejectWrite s).port = s.port ∧
    (rejectWrite s).writer = s.writer ∧
    (rejectWrite s).descriptor = s.descriptor ∧
    (rejectWrite s).sequencer = s.sequencer ∧
    (rejectWrite s).memory = s.memory ∧
    (rejectWrite s).now = s.now ∧
    (rejectWrite s).freeIndex = s.freeIndex := by
  unfold rejectWrite; simp

/-- The fields that `stopStall` leaves as they are. -/
@[simp] theorem stopStall_frame (s : State) :
    (stopStall s).pending = s.pending ∧
    (stopStall s).porAsserted = s.porAsserted ∧
    (stopStall s).pins = s.pins ∧
    (stopStall s).queue = s.queue ∧
    (stopStall s).control = s.control ∧
    (stopStall s).queueEmptyReports = s.queueEmptyReports ∧
    (stopStall s).monitor = s.monitor ∧
    (stopStall s).engine = s.engine ∧
    (stopStall s).port = s.port ∧
    (stopStall s).status = s.status ∧
    (stopStall s).writer = s.writer ∧
    (stopStall s).descriptor = s.descriptor ∧
    (stopStall s).sequencer = s.sequencer ∧
    (stopStall s).memory = s.memory ∧
    (stopStall s).now = s.now ∧
    (stopStall s).freeIndex = s.freeIndex := by
  unfold stopStall; simp

/-- The fields that `beginStall` leaves as they are. -/
@[simp] theorem beginStall_frame (k : StallKind) (s : State) :
    (beginStall k s).pending = s.pending ∧
    (beginStall k s).porAsserted = s.porAsserted ∧
    (beginStall k s).pins = s.pins ∧
    (beginStall k s).queue = s.queue ∧
    (beginStall k s).control = s.control ∧
    (beginStall k s).queueEmptyReports = s.queueEmptyReports ∧
    (beginStall k s).monitor = s.monitor ∧
    (beginStall k s).engine = s.engine ∧
    (beginStall k s).port = s.port ∧
    (beginStall k s).writer = s.writer ∧
    (beginStall k s).descriptor = s.descriptor ∧
    (beginStall k s).sequencer = s.sequencer ∧
    (beginStall k s).memory = s.memory ∧
    (beginStall k s).now = s.now ∧
    (beginStall k s).freeIndex = s.freeIndex := by
  unfold beginStall
  try dsimp only
  (repeat' split) <;> simp

/-- The fields that `acceptQueued` leaves as they are. -/
@[simp] theorem acceptQueued_frame (a : Addr) (b : Byte) (s : State) :
    (acceptQueued a b s).pending = s.pending ∧
    (acceptQueued a b s).porAsserted = s.porAsserted ∧
    (acceptQueued a b s).pins = s.pins ∧
    (acceptQueued a b s).queue = s.queue ∧
    (acceptQueued a b s).control = s.control ∧
    (acceptQueued a b s).queueEmptyReports = s.queueEmptyReports ∧
    (acceptQueued a b s).engine = s.engine ∧
    (acceptQueued a b s).writer = s.writer ∧
    (acceptQueued a b s).sequencer = s.sequencer ∧
    (acceptQueued a b s).now = s.now ∧
    (acceptQueued a b s).freeIndex = s.freeIndex := by
  unfold acceptQueued
  try dsimp only
  (repeat' split) <;> simp

/-- The fields that `hostRequest` leaves as they are. -/
@[simp] theorem hostRequest_frame (op : BusOp) (s : State) :
    (hostRequest op s).pending = s.pending ∧
    (hostRequest op s).porAsserted = s.porAsserted ∧
    (hostRequest op s).pins = s.pins ∧
    (hostRequest op s).queue = s.queue ∧
    (hostRequest op s).control = s.control ∧
    (hostRequest op s).queueEmptyReports = s.queueEmptyReports ∧
    (hostRequest op s).monitor = s.monitor ∧
    (hostRequest op s).engine = s.engine ∧
    (hostRequest op s).status = s.status ∧
    (hostRequest op s).writer = s.writer ∧
    (hostRequest op s).descriptor = s.descriptor ∧
    (hostRequest op s).sequencer = s.sequencer ∧
    (hostRequest op s).now = s.now ∧
    (hostRequest op s).freeIndex = s.freeIndex := by
  unfold hostRequest
  try dsimp only
  (repeat' split) <;> simp

/-- The fields that `passThrough` leaves as they are. -/
@[simp] theorem passThrough_frame (a : Addr) (b : Byte) (s : State) :
    (passThrough a b s).pending = s.pending ∧
    (passThrough a b s).porAsserted = s.porAsserted ∧
    (passThrough a b s).pins = s.pins ∧
    (passThrough a b s).queue = s.queue ∧
    (passThrough a b s).control = s.control ∧
    (passThrough a b s).queueEmptyReports = s.queueEmptyReports ∧
    (passThrough a b s).monitor = s.monitor ∧
    (passThrough a b s).engine = s.engine ∧
    (passThrough a b s).status = s.status ∧
    (passThrough a b s).writer = s.writer ∧
    (passThrough a b s).descriptor = s.descriptor ∧
    (passThrough a b s).sequencer = s.sequencer ∧
    (passThrough a b s).now = s.now ∧
    (passThrough a b s).freeIndex = s.freeIndex := by
  unfold passThrough; simp

/-- The fields that `discardWrite` leaves as they are. -/
@[simp] theorem discardWrite_frame (s : State) :
    (discardWrite s).pending = s.pending ∧
    (discardWrite s).porAsserted = s.porAsserted ∧
    (discardWrite s).pins = s.pins ∧
    (discardWrite s).queue = s.queue ∧
    (discardWrite s).control = s.control ∧
    (discardWrite s).queueEmptyReports = s.queueEmptyReports ∧
    (discardWrite s).monitor = s.monitor ∧
    (discardWrite s).engine = s.engine ∧
    (discardWrite s).port = s.port ∧
    (discardWrite s).writer = s.writer ∧
    (discardWrite s).descriptor = s.descriptor ∧
    (discardWrite s).sequencer = s.sequencer ∧
    (discardWrite s).memory = s.memory ∧
    (discardWrite s).now = s.now ∧
    (discardWrite s).freeIndex = s.freeIndex := by
  unfold discardWrite; simp

/-- The fields that `handOver` leaves as they are. -/
@[simp] theorem handOver_frame (op : BusOp) (s : State) :
    (handOver op s).pending = s.pending ∧
    (handOver op s).porAsserted = s.porAsserted ∧
    (handOver op s).pins = s.pins ∧
    (handOver op s).host = s.host ∧
    (handOver op s).queue = s.queue ∧
    (handOver op s).control = s.control ∧
    (handOver op s).queueEmptyReports = s.queueEmptyReports ∧
    (handOver op s).monitor = s.monitor ∧
    (handOver op s).engine = s.engine ∧
    (handOver op s).port = s.port ∧
    (handOver op s).writer = s.writer ∧
    (handOver op s).descriptor = s.descriptor ∧
    (handOver op s).sequencer = s.sequencer ∧
    (handOver op s).memory = s.memory ∧
    (handOver op s).now = s.now ∧
    (handOver op s).freeIndex = s.freeIndex := by
  unfold handOver
  try dsimp only
  (repeat' split) <;> simp

end Sys2Proof.Machine
end

