-- ==== Sys2Proof/Laws/HostFrames.lean ====
section
/-! SUPPORT. For each operation of the host port, the fields of State that it leaves as they are. -/

namespace Sys2Proof.Machine

open Sys2Proof

/-- The fields that an append's consequences leave as they are. -/
@[simp] theorem appendTaken_frame (a : Addr) (b : Byte) (s : State) :
    (appendTaken a b s).pending = s.pending ∧
    (appendTaken a b s).porAsserted = s.porAsserted ∧
    (appendTaken a b s).pins = s.pins ∧
    (appendTaken a b s).control = s.control ∧
    (appendTaken a b s).queueEmptyReports = s.queueEmptyReports ∧
    (appendTaken a b s).writer = s.writer ∧
    (appendTaken a b s).sequencer = s.sequencer ∧
    (appendTaken a b s).now = s.now := by
  unfold appendTaken
  (repeat' split) <;> simp

/-- The fields that a write taken into the queue leaves as they are. -/
theorem takeIntoQueue_frame (a : Addr) (b : Byte) (merge : Bool) (s t : State)
    (h : takeIntoQueue a b merge s = some t) :
    t.pending = s.pending ∧
    t.porAsserted = s.porAsserted ∧
    t.pins = s.pins ∧
    t.control = s.control ∧
    t.queueEmptyReports = s.queueEmptyReports ∧
    t.writer = s.writer ∧
    t.sequencer = s.sequencer ∧
    t.now = s.now := by
  unfold takeIntoQueue at h
  split at h <;> simp only [Option.some.injEq, reduceCtorEq] at h <;> subst h <;> simp

/-- The fields that `queueWrite` leaves as they are. -/
@[simp] theorem queueWrite_frame (a : Addr) (b : Byte) (merge : Bool) (s : State) :
    (queueWrite a b merge s).pending = s.pending ∧
    (queueWrite a b merge s).porAsserted = s.porAsserted ∧
    (queueWrite a b merge s).pins = s.pins ∧
    (queueWrite a b merge s).control = s.control ∧
    (queueWrite a b merge s).queueEmptyReports = s.queueEmptyReports ∧
    (queueWrite a b merge s).writer = s.writer ∧
    (queueWrite a b merge s).sequencer = s.sequencer ∧
    (queueWrite a b merge s).now = s.now := by
  unfold queueWrite
  split
  · next t h => exact takeIntoQueue_frame a b merge s t h
  · simp

/-- The fields that `decideWindow` leaves as they are. -/
@[simp] theorem decideWindow_frame (a : Addr) (b : Byte) (s : State) :
    (decideWindow a b s).pending = s.pending ∧
    (decideWindow a b s).porAsserted = s.porAsserted ∧
    (decideWindow a b s).pins = s.pins ∧
    (decideWindow a b s).control = s.control ∧
    (decideWindow a b s).queueEmptyReports = s.queueEmptyReports ∧
    (decideWindow a b s).writer = s.writer ∧
    (decideWindow a b s).sequencer = s.sequencer ∧
    (decideWindow a b s).now = s.now := by
  unfold decideWindow
  try dsimp only
  (repeat' split) <;> simp

/-- The fields that `decideRegion` leaves as they are. -/
@[simp] theorem decideRegion_frame (p : Policy) (merge : Bool) (a : Addr) (b : Byte) (s : State) :
    (decideRegion p merge a b s).pending = s.pending ∧
    (decideRegion p merge a b s).porAsserted = s.porAsserted ∧
    (decideRegion p merge a b s).pins = s.pins ∧
    (decideRegion p merge a b s).control = s.control ∧
    (decideRegion p merge a b s).queueEmptyReports = s.queueEmptyReports ∧
    (decideRegion p merge a b s).writer = s.writer ∧
    (decideRegion p merge a b s).sequencer = s.sequencer ∧
    (decideRegion p merge a b s).now = s.now := by
  unfold decideRegion
  try dsimp only
  (repeat' split) <;> simp

/-- The fields that `decideWrite` leaves as they are. -/
@[simp] theorem decideWrite_frame (a : Addr) (b : Byte) (s : State) :
    (decideWrite a b s).pending = s.pending ∧
    (decideWrite a b s).porAsserted = s.porAsserted ∧
    (decideWrite a b s).pins = s.pins ∧
    (decideWrite a b s).control = s.control ∧
    (decideWrite a b s).queueEmptyReports = s.queueEmptyReports ∧
    (decideWrite a b s).writer = s.writer ∧
    (decideWrite a b s).sequencer = s.sequencer ∧
    (decideWrite a b s).now = s.now := by
  unfold decideWrite
  try dsimp only
  (repeat' split) <;> simp

/-- The fields that `handOverAtStart` leaves as they are. -/
@[simp] theorem handOverAtStart_frame (op : BusOp) (s : State) :
    (handOverAtStart op s).pending = s.pending ∧
    (handOverAtStart op s).porAsserted = s.porAsserted ∧
    (handOverAtStart op s).pins = s.pins ∧
    (handOverAtStart op s).host = s.host ∧
    (handOverAtStart op s).queue = s.queue ∧
    (handOverAtStart op s).control = s.control ∧
    (handOverAtStart op s).queueEmptyReports = s.queueEmptyReports ∧
    (handOverAtStart op s).monitor = s.monitor ∧
    (handOverAtStart op s).engine = s.engine ∧
    (handOverAtStart op s).port = s.port ∧
    (handOverAtStart op s).writer = s.writer ∧
    (handOverAtStart op s).descriptor = s.descriptor ∧
    (handOverAtStart op s).sequencer = s.sequencer ∧
    (handOverAtStart op s).memory = s.memory ∧
    (handOverAtStart op s).now = s.now := by
  unfold handOverAtStart
  try dsimp only
  (repeat' split) <;> simp

/-- The fields that `routeRead` leaves as they are. -/
@[simp] theorem routeRead_frame (a : Addr) (s : State) :
    (routeRead a s).pending = s.pending ∧
    (routeRead a s).porAsserted = s.porAsserted ∧
    (routeRead a s).pins = s.pins ∧
    (routeRead a s).queue = s.queue ∧
    (routeRead a s).control = s.control ∧
    (routeRead a s).queueEmptyReports = s.queueEmptyReports ∧
    (routeRead a s).monitor = s.monitor ∧
    (routeRead a s).engine = s.engine ∧
    (routeRead a s).writer = s.writer ∧
    (routeRead a s).descriptor = s.descriptor ∧
    (routeRead a s).sequencer = s.sequencer ∧
    (routeRead a s).now = s.now ∧
    (routeRead a s).freeIndex = s.freeIndex := by
  unfold routeRead readStatus; (repeat' split) <;> simp

/-- The fields that `routeAccess` leaves as they are. -/
@[simp] theorem routeAccess_frame (s : State) :
    (routeAccess s).pending = s.pending ∧
    (routeAccess s).porAsserted = s.porAsserted ∧
    (routeAccess s).pins = s.pins ∧
    (routeAccess s).control = s.control ∧
    (routeAccess s).queueEmptyReports = s.queueEmptyReports ∧
    (routeAccess s).writer = s.writer ∧
    (routeAccess s).sequencer = s.sequencer ∧
    (routeAccess s).now = s.now := by
  unfold routeAccess
  try dsimp only
  (repeat' split) <;> simp

/-- The fields that `beginAccess` leaves as they are. -/
@[simp] theorem beginAccess_frame (op : BusOp) (s : State) :
    (beginAccess op s).pending = s.pending ∧
    (beginAccess op s).porAsserted = s.porAsserted ∧
    (beginAccess op s).pins = s.pins ∧
    (beginAccess op s).control = s.control ∧
    (beginAccess op s).queueEmptyReports = s.queueEmptyReports ∧
    (beginAccess op s).writer = s.writer ∧
    (beginAccess op s).sequencer = s.sequencer ∧
    (beginAccess op s).now = s.now := by
  unfold beginAccess; simp

/-- The fields that `settleHost` leaves as they are. -/
@[simp] theorem settleHost_frame (s : State) :
    (settleHost s).pending = s.pending ∧
    (settleHost s).porAsserted = s.porAsserted ∧
    (settleHost s).pins = s.pins ∧
    (settleHost s).control = s.control ∧
    (settleHost s).queueEmptyReports = s.queueEmptyReports ∧
    (settleHost s).writer = s.writer ∧
    (settleHost s).sequencer = s.sequencer ∧
    (settleHost s).now = s.now := by
  unfold settleHost
  try dsimp only
  (repeat' split) <;> simp

/-- The fields that `decideAnew` leaves as they are. -/
@[simp] theorem decideAnew_frame (s : State) :
    (decideAnew s).pending = s.pending ∧
    (decideAnew s).porAsserted = s.porAsserted ∧
    (decideAnew s).pins = s.pins ∧
    (decideAnew s).control = s.control ∧
    (decideAnew s).queueEmptyReports = s.queueEmptyReports ∧
    (decideAnew s).writer = s.writer ∧
    (decideAnew s).sequencer = s.sequencer ∧
    (decideAnew s).now = s.now := by
  unfold decideAnew; simp

/-- The fields that `driveRead` leaves as they are. -/
@[simp] theorem driveRead_frame (a : Addr) (s : State) :
    (driveRead a s).pending = s.pending ∧
    (driveRead a s).porAsserted = s.porAsserted ∧
    (driveRead a s).control = s.control ∧
    (driveRead a s).queueEmptyReports = s.queueEmptyReports ∧
    (driveRead a s).writer = s.writer ∧
    (driveRead a s).sequencer = s.sequencer ∧
    (driveRead a s).now = s.now := by
  unfold driveRead; simp

/-- The fields that `driveWrite` leaves as they are. -/
@[simp] theorem driveWrite_frame (a : Addr) (b : Byte) (s : State) :
    (driveWrite a b s).pending = s.pending ∧
    (driveWrite a b s).porAsserted = s.porAsserted ∧
    (driveWrite a b s).control = s.control ∧
    (driveWrite a b s).queueEmptyReports = s.queueEmptyReports ∧
    (driveWrite a b s).writer = s.writer ∧
    (driveWrite a b s).sequencer = s.sequencer ∧
    (driveWrite a b s).now = s.now := by
  unfold driveWrite; simp

/-- The fields that `endOrRelease` leaves as they are. -/
@[simp] theorem endOrRelease_frame (acc : HostAccess) (s : State) :
    (endOrRelease acc s).pending = s.pending ∧
    (endOrRelease acc s).porAsserted = s.porAsserted ∧
    (endOrRelease acc s).pins = s.pins ∧
    (endOrRelease acc s).queue = s.queue ∧
    (endOrRelease acc s).control = s.control ∧
    (endOrRelease acc s).queueEmptyReports = s.queueEmptyReports ∧
    (endOrRelease acc s).monitor = s.monitor ∧
    (endOrRelease acc s).engine = s.engine ∧
    (endOrRelease acc s).port = s.port ∧
    (endOrRelease acc s).status = s.status ∧
    (endOrRelease acc s).writer = s.writer ∧
    (endOrRelease acc s).descriptor = s.descriptor ∧
    (endOrRelease acc s).sequencer = s.sequencer ∧
    (endOrRelease acc s).memory = s.memory ∧
    (endOrRelease acc s).now = s.now ∧
    (endOrRelease acc s).freeIndex = s.freeIndex := by
  unfold endOrRelease; simp

/-- The fields that `raiseLine` leaves as they are. -/
@[simp] theorem raiseLine_frame (l : HostLine) (s : State) :
    (raiseLine l s).pending = s.pending ∧
    (raiseLine l s).porAsserted = s.porAsserted ∧
    (raiseLine l s).control = s.control ∧
    (raiseLine l s).queueEmptyReports = s.queueEmptyReports ∧
    (raiseLine l s).writer = s.writer ∧
    (raiseLine l s).sequencer = s.sequencer ∧
    (raiseLine l s).now = s.now := by
  unfold raiseLine
  try dsimp only
  (repeat' split) <;> simp

/-- The fields that `slotFreed` leaves as they are. -/
@[simp] theorem slotFreed_frame (s : State) :
    (slotFreed s).pending = s.pending ∧
    (slotFreed s).porAsserted = s.porAsserted ∧
    (slotFreed s).pins = s.pins ∧
    (slotFreed s).control = s.control ∧
    (slotFreed s).queueEmptyReports = s.queueEmptyReports ∧
    (slotFreed s).writer = s.writer ∧
    (slotFreed s).sequencer = s.sequencer ∧
    (slotFreed s).now = s.now := by
  unfold slotFreed
  split
  · next a b merge r h =>
    split
    · next t ht => simp [takeIntoQueue_frame a b merge s t ht]
    · simp
  · simp

/-- The fields that `hostModeChanged` leaves as they are. -/
@[simp] theorem hostModeChanged_frame (s : State) :
    (hostModeChanged s).pending = s.pending ∧
    (hostModeChanged s).porAsserted = s.porAsserted ∧
    (hostModeChanged s).pins = s.pins ∧
    (hostModeChanged s).control = s.control ∧
    (hostModeChanged s).queueEmptyReports = s.queueEmptyReports ∧
    (hostModeChanged s).writer = s.writer ∧
    (hostModeChanged s).sequencer = s.sequencer ∧
    (hostModeChanged s).now = s.now := by
  unfold hostModeChanged
  try dsimp only
  (repeat' split) <;> simp

/-- The fields that `hostReloadEnded` leaves as they are. -/
@[simp] theorem hostReloadEnded_frame (s : State) :
    (hostReloadEnded s).pending = s.pending ∧
    (hostReloadEnded s).porAsserted = s.porAsserted ∧
    (hostReloadEnded s).pins = s.pins ∧
    (hostReloadEnded s).control = s.control ∧
    (hostReloadEnded s).queueEmptyReports = s.queueEmptyReports ∧
    (hostReloadEnded s).writer = s.writer ∧
    (hostReloadEnded s).sequencer = s.sequencer ∧
    (hostReloadEnded s).now = s.now := by
  unfold hostReloadEnded
  try dsimp only
  (repeat' split) <;> simp

/-- The fields that `resetHost` leaves as they are. -/
@[simp] theorem resetHost_frame (s : State) :
    (resetHost s).pending = s.pending ∧
    (resetHost s).porAsserted = s.porAsserted ∧
    (resetHost s).pins = s.pins ∧
    (resetHost s).queue = s.queue ∧
    (resetHost s).control = s.control ∧
    (resetHost s).queueEmptyReports = s.queueEmptyReports ∧
    (resetHost s).monitor = s.monitor ∧
    (resetHost s).engine = s.engine ∧
    (resetHost s).writer = s.writer ∧
    (resetHost s).descriptor = s.descriptor ∧
    (resetHost s).sequencer = s.sequencer ∧
    (resetHost s).memory = s.memory ∧
    (resetHost s).now = s.now ∧
    (resetHost s).freeIndex = s.freeIndex := by
  unfold resetHost; try dsimp only
  (repeat' split) <;> simp

end Sys2Proof.Machine
end

