-- ==== Sys2Proof/Laws/ModeFrames.lean ====
section
/-! SUPPORT. For each operation of the mode controller, the monitor and the sequencer, the fields of State that it
leaves as they are. -/

namespace Sys2Proof.Machine

open Sys2Proof

/-- The fields that `setMode` leaves as they are. -/
@[simp] theorem setMode_frame (m : Mode) (s : State) :
    (setMode m s).pending = s.pending ∧
    (setMode m s).porAsserted = s.porAsserted ∧
    (setMode m s).pins = s.pins ∧
    (setMode m s).host = s.host ∧
    (setMode m s).queue = s.queue ∧
    (setMode m s).queueEmptyReports = s.queueEmptyReports ∧
    (setMode m s).monitor = s.monitor ∧
    (setMode m s).engine = s.engine ∧
    (setMode m s).port = s.port ∧
    (setMode m s).status = s.status ∧
    (setMode m s).writer = s.writer ∧
    (setMode m s).descriptor = s.descriptor ∧
    (setMode m s).sequencer = s.sequencer ∧
    (setMode m s).memory = s.memory ∧
    (setMode m s).now = s.now ∧
    (setMode m s).freeIndex = s.freeIndex := by
  unfold setMode; simp

/-- The fields that `setSafety` leaves as they are. -/
@[simp] theorem setSafety_frame (f : Safety) (s : State) :
    (setSafety f s).pending = s.pending ∧
    (setSafety f s).porAsserted = s.porAsserted ∧
    (setSafety f s).pins = s.pins ∧
    (setSafety f s).host = s.host ∧
    (setSafety f s).queue = s.queue ∧
    (setSafety f s).control = s.control ∧
    (setSafety f s).queueEmptyReports = s.queueEmptyReports ∧
    (setSafety f s).monitor = s.monitor ∧
    (setSafety f s).engine = s.engine ∧
    (setSafety f s).port = s.port ∧
    (setSafety f s).writer = s.writer ∧
    (setSafety f s).descriptor = s.descriptor ∧
    (setSafety f s).sequencer = s.sequencer ∧
    (setSafety f s).memory = s.memory ∧
    (setSafety f s).now = s.now ∧
    (setSafety f s).freeIndex = s.freeIndex := by
  unfold setSafety; simp

/-- The fields that `awaitWrite` leaves as they are. -/
@[simp] theorem awaitWrite_frame (k : AwaitedKind) (s : State) :
    (awaitWrite k s).pending = s.pending ∧
    (awaitWrite k s).porAsserted = s.porAsserted ∧
    (awaitWrite k s).pins = s.pins ∧
    (awaitWrite k s).host = s.host ∧
    (awaitWrite k s).queue = s.queue ∧
    (awaitWrite k s).queueEmptyReports = s.queueEmptyReports ∧
    (awaitWrite k s).monitor = s.monitor ∧
    (awaitWrite k s).engine = s.engine ∧
    (awaitWrite k s).port = s.port ∧
    (awaitWrite k s).status = s.status ∧
    (awaitWrite k s).writer = s.writer ∧
    (awaitWrite k s).descriptor = s.descriptor ∧
    (awaitWrite k s).sequencer = s.sequencer ∧
    (awaitWrite k s).memory = s.memory ∧
    (awaitWrite k s).now = s.now ∧
    (awaitWrite k s).freeIndex = s.freeIndex := by
  unfold awaitWrite; simp

/-- The fields that `awaitNone` leaves as they are. -/
@[simp] theorem awaitNone_frame (s : State) :
    (awaitNone s).pending = s.pending ∧
    (awaitNone s).porAsserted = s.porAsserted ∧
    (awaitNone s).pins = s.pins ∧
    (awaitNone s).host = s.host ∧
    (awaitNone s).queue = s.queue ∧
    (awaitNone s).queueEmptyReports = s.queueEmptyReports ∧
    (awaitNone s).monitor = s.monitor ∧
    (awaitNone s).engine = s.engine ∧
    (awaitNone s).port = s.port ∧
    (awaitNone s).status = s.status ∧
    (awaitNone s).writer = s.writer ∧
    (awaitNone s).descriptor = s.descriptor ∧
    (awaitNone s).sequencer = s.sequencer ∧
    (awaitNone s).memory = s.memory ∧
    (awaitNone s).now = s.now ∧
    (awaitNone s).freeIndex = s.freeIndex := by
  unfold awaitNone; simp

/-- The fields that `beginEpisode` leaves as they are. -/
@[simp] theorem beginEpisode_frame (r : HoldReason) (s : State) :
    (beginEpisode r s).pending = s.pending ∧
    (beginEpisode r s).porAsserted = s.porAsserted ∧
    (beginEpisode r s).pins = s.pins ∧
    (beginEpisode r s).host = s.host ∧
    (beginEpisode r s).queue = s.queue ∧
    (beginEpisode r s).queueEmptyReports = s.queueEmptyReports ∧
    (beginEpisode r s).monitor = s.monitor ∧
    (beginEpisode r s).engine = s.engine ∧
    (beginEpisode r s).port = s.port ∧
    (beginEpisode r s).writer = s.writer ∧
    (beginEpisode r s).descriptor = s.descriptor ∧
    (beginEpisode r s).sequencer = s.sequencer ∧
    (beginEpisode r s).memory = s.memory ∧
    (beginEpisode r s).now = s.now ∧
    (beginEpisode r s).freeIndex = s.freeIndex := by
  unfold beginEpisode; simp

/-- The fields that `leaveDrain` leaves as they are. -/
@[simp] theorem leaveDrain_frame (m : Mode) (s : State) :
    (leaveDrain m s).pending = s.pending ∧
    (leaveDrain m s).porAsserted = s.porAsserted ∧
    (leaveDrain m s).pins = s.pins ∧
    (leaveDrain m s).host = s.host ∧
    (leaveDrain m s).control = s.control ∧
    (leaveDrain m s).queueEmptyReports = s.queueEmptyReports ∧
    (leaveDrain m s).monitor = s.monitor ∧
    (leaveDrain m s).status = s.status ∧
    (leaveDrain m s).writer = s.writer ∧
    (leaveDrain m s).descriptor = s.descriptor ∧
    (leaveDrain m s).sequencer = s.sequencer ∧
    (leaveDrain m s).memory = s.memory ∧
    (leaveDrain m s).now = s.now ∧
    (leaveDrain m s).freeIndex = s.freeIndex := by
  unfold leaveDrain
  try dsimp only
  (repeat' split) <;> simp

/-- The fields that `enterHold` leaves as they are. -/
@[simp] theorem enterHold_frame (s : State) :
    (enterHold s).pending = s.pending ∧
    (enterHold s).porAsserted = s.porAsserted ∧
    (enterHold s).pins = s.pins ∧
    (enterHold s).queueEmptyReports = s.queueEmptyReports ∧
    (enterHold s).sequencer = s.sequencer ∧
    (enterHold s).now = s.now := by
  unfold enterHold; simp

/-- The fields that `enterEntering` leaves as they are. -/
@[simp] theorem enterEntering_frame (s : State) :
    (enterEntering s).pending = s.pending ∧
    (enterEntering s).porAsserted = s.porAsserted ∧
    (enterEntering s).pins = s.pins ∧
    (enterEntering s).queueEmptyReports = s.queueEmptyReports ∧
    (enterEntering s).sequencer = s.sequencer ∧
    (enterEntering s).now = s.now := by
  unfold enterEntering; simp

/-- The fields that `enterDrain` leaves as they are. -/
@[simp] theorem enterDrain_frame (s : State) :
    (enterDrain s).pending = s.pending ∧
    (enterDrain s).porAsserted = s.porAsserted ∧
    (enterDrain s).pins = s.pins ∧
    (enterDrain s).queueEmptyReports = s.queueEmptyReports ∧
    (enterDrain s).sequencer = s.sequencer ∧
    (enterDrain s).now = s.now := by
  unfold enterDrain; simp

/-- The fields that `enterClosing` leaves as they are. -/
@[simp] theorem enterClosing_frame (s : State) :
    (enterClosing s).pending = s.pending ∧
    (enterClosing s).porAsserted = s.porAsserted ∧
    (enterClosing s).pins = s.pins ∧
    (enterClosing s).queueEmptyReports = s.queueEmptyReports ∧
    (enterClosing s).sequencer = s.sequencer ∧
    (enterClosing s).now = s.now := by
  unfold enterClosing; simp

/-- The fields that `closeToNormal` leaves as they are. -/
@[simp] theorem closeToNormal_frame (s : State) :
    (closeToNormal s).pending = s.pending ∧
    (closeToNormal s).porAsserted = s.porAsserted ∧
    (closeToNormal s).pins = s.pins ∧
    (closeToNormal s).queueEmptyReports = s.queueEmptyReports ∧
    (closeToNormal s).sequencer = s.sequencer ∧
    (closeToNormal s).now = s.now := by
  unfold closeToNormal; simp

/-- The fields that `evaluateExit` leaves as they are. -/
@[simp] theorem evaluateExit_frame (s : State) :
    (evaluateExit s).pending = s.pending ∧
    (evaluateExit s).porAsserted = s.porAsserted ∧
    (evaluateExit s).pins = s.pins ∧
    (evaluateExit s).queueEmptyReports = s.queueEmptyReports ∧
    (evaluateExit s).sequencer = s.sequencer ∧
    (evaluateExit s).now = s.now := by
  unfold evaluateExit
  try dsimp only
  (repeat' split) <;> simp

/-- The fields that `beginHold` leaves as they are. -/
@[simp] theorem beginHold_frame (r : HoldReason) (s : State) :
    (beginHold r s).pending = s.pending ∧
    (beginHold r s).porAsserted = s.porAsserted ∧
    (beginHold r s).pins = s.pins ∧
    (beginHold r s).queueEmptyReports = s.queueEmptyReports ∧
    (beginHold r s).sequencer = s.sequencer ∧
    (beginHold r s).now = s.now := by
  unfold beginHold; simp

/-- The fields that `takeTrip` leaves as they are. -/
@[simp] theorem takeTrip_frame (s : State) :
    (takeTrip s).pending = s.pending ∧
    (takeTrip s).porAsserted = s.porAsserted ∧
    (takeTrip s).pins = s.pins ∧
    (takeTrip s).queueEmptyReports = s.queueEmptyReports ∧
    (takeTrip s).now = s.now := by
  unfold takeTrip
  try dsimp only
  (repeat' split) <;> simp

/-- The fields that `followMonitor` leaves as they are. -/
@[simp] theorem followMonitor_frame (s : State) :
    (followMonitor s).pending = s.pending ∧
    (followMonitor s).porAsserted = s.porAsserted ∧
    (followMonitor s).pins = s.pins ∧
    (followMonitor s).queueEmptyReports = s.queueEmptyReports ∧
    (followMonitor s).sequencer = s.sequencer ∧
    (followMonitor s).now = s.now := by
  unfold followMonitor; simp

/-- The fields that `takeWarn` leaves as they are. -/
@[simp] theorem takeWarn_frame (s : State) :
    (takeWarn s).pending = s.pending ∧
    (takeWarn s).porAsserted = s.porAsserted ∧
    (takeWarn s).pins = s.pins ∧
    (takeWarn s).queueEmptyReports = s.queueEmptyReports ∧
    (takeWarn s).sequencer = s.sequencer ∧
    (takeWarn s).now = s.now := by
  unfold takeWarn
  try dsimp only
  (repeat' split) <;> simp

/-- The fields that `takeClear` leaves as they are. -/
@[simp] theorem takeClear_frame (s : State) :
    (takeClear s).pending = s.pending ∧
    (takeClear s).porAsserted = s.porAsserted ∧
    (takeClear s).pins = s.pins ∧
    (takeClear s).queueEmptyReports = s.queueEmptyReports ∧
    (takeClear s).sequencer = s.sequencer ∧
    (takeClear s).now = s.now := by
  unfold takeClear
  try dsimp only
  (repeat' split) <;> simp

/-- The fields that `takeHreqRising` leaves as they are. -/
@[simp] theorem takeHreqRising_frame (s : State) :
    (takeHreqRising s).pending = s.pending ∧
    (takeHreqRising s).porAsserted = s.porAsserted ∧
    (takeHreqRising s).pins = s.pins ∧
    (takeHreqRising s).queueEmptyReports = s.queueEmptyReports ∧
    (takeHreqRising s).sequencer = s.sequencer ∧
    (takeHreqRising s).now = s.now := by
  unfold takeHreqRising; try dsimp only
  (repeat' split) <;> simp

/-- The fields that `takeHreqFalling` leaves as they are. -/
@[simp] theorem takeHreqFalling_frame (s : State) :
    (takeHreqFalling s).pending = s.pending ∧
    (takeHreqFalling s).porAsserted = s.porAsserted ∧
    (takeHreqFalling s).pins = s.pins ∧
    (takeHreqFalling s).queueEmptyReports = s.queueEmptyReports ∧
    (takeHreqFalling s).sequencer = s.sequencer ∧
    (takeHreqFalling s).now = s.now := by
  unfold takeHreqFalling; simp

/-- The fields that `takeQueueEmpty` leaves as they are. -/
@[simp] theorem takeQueueEmpty_frame (s : State) :
    (takeQueueEmpty s).pending = s.pending ∧
    (takeQueueEmpty s).porAsserted = s.porAsserted ∧
    (takeQueueEmpty s).pins = s.pins ∧
    (takeQueueEmpty s).sequencer = s.sequencer ∧
    (takeQueueEmpty s).now = s.now := by
  unfold takeQueueEmpty; try dsimp only
  (repeat' split) <;> simp

/-- The fields that `aimTimer` leaves as they are. -/
@[simp] theorem aimTimer_frame (s : State) :
    (aimTimer s).pending = s.pending ∧
    (aimTimer s).porAsserted = s.porAsserted ∧
    (aimTimer s).pins = s.pins ∧
    (aimTimer s).host = s.host ∧
    (aimTimer s).queue = s.queue ∧
    (aimTimer s).control = s.control ∧
    (aimTimer s).queueEmptyReports = s.queueEmptyReports ∧
    (aimTimer s).engine = s.engine ∧
    (aimTimer s).port = s.port ∧
    (aimTimer s).status = s.status ∧
    (aimTimer s).writer = s.writer ∧
    (aimTimer s).descriptor = s.descriptor ∧
    (aimTimer s).sequencer = s.sequencer ∧
    (aimTimer s).memory = s.memory ∧
    (aimTimer s).now = s.now ∧
    (aimTimer s).freeIndex = s.freeIndex := by
  unfold aimTimer; simp

/-- The fields that `takeSupplyEvent` leaves as they are. -/
@[simp] theorem takeSupplyEvent_frame (e : SupplyEvent) (s : State) :
    (takeSupplyEvent e s).pending = s.pending ∧
    (takeSupplyEvent e s).porAsserted = s.porAsserted ∧
    (takeSupplyEvent e s).pins = s.pins ∧
    (takeSupplyEvent e s).queueEmptyReports = s.queueEmptyReports ∧
    (takeSupplyEvent e s).now = s.now := by
  unfold takeSupplyEvent
  try dsimp only
  (repeat' split) <;> simp

/-- The fields that `takeSample` leaves as they are. -/
@[simp] theorem takeSample_frame (s : State) :
    (takeSample s).pending = s.pending ∧
    (takeSample s).porAsserted = s.porAsserted ∧
    (takeSample s).pins = s.pins ∧
    (takeSample s).queueEmptyReports = s.queueEmptyReports ∧
    (takeSample s).now = s.now := by
  unfold takeSample measure; simp

/-- The fields that `reaim` leaves as they are. -/
@[simp] theorem reaim_frame (m : Mode) (s : State) :
    (reaim m s).pending = s.pending ∧
    (reaim m s).porAsserted = s.porAsserted ∧
    (reaim m s).pins = s.pins ∧
    (reaim m s).host = s.host ∧
    (reaim m s).queue = s.queue ∧
    (reaim m s).control = s.control ∧
    (reaim m s).queueEmptyReports = s.queueEmptyReports ∧
    (reaim m s).engine = s.engine ∧
    (reaim m s).port = s.port ∧
    (reaim m s).status = s.status ∧
    (reaim m s).writer = s.writer ∧
    (reaim m s).descriptor = s.descriptor ∧
    (reaim m s).sequencer = s.sequencer ∧
    (reaim m s).memory = s.memory ∧
    (reaim m s).now = s.now ∧
    (reaim m s).freeIndex = s.freeIndex := by
  unfold reaim
  try dsimp only
  (repeat' split) <;> simp

/-- The fields that `afterEvent` leaves as they are. -/
@[simp] theorem afterEvent_frame (m : Mode) (s : State) :
    (afterEvent m s).pending = s.pending ∧
    (afterEvent m s).porAsserted = s.porAsserted ∧
    (afterEvent m s).pins = s.pins ∧
    (afterEvent m s).host = s.host ∧
    (afterEvent m s).queue = s.queue ∧
    (afterEvent m s).control = s.control ∧
    (afterEvent m s).queueEmptyReports = s.queueEmptyReports ∧
    (afterEvent m s).engine = s.engine ∧
    (afterEvent m s).status = s.status ∧
    (afterEvent m s).writer = s.writer ∧
    (afterEvent m s).descriptor = s.descriptor ∧
    (afterEvent m s).sequencer = s.sequencer ∧
    (afterEvent m s).now = s.now ∧
    (afterEvent m s).freeIndex = s.freeIndex := by
  unfold afterEvent
  try dsimp only
  (repeat' split) <;> simp

/-- The fields that `assessLine` leaves as they are. -/
@[simp] theorem assessLine_frame (bs : List Byte) (s : State) :
    (assessLine bs s).pending = s.pending ∧
    (assessLine bs s).porAsserted = s.porAsserted ∧
    (assessLine bs s).pins = s.pins ∧
    (assessLine bs s).host = s.host ∧
    (assessLine bs s).queue = s.queue ∧
    (assessLine bs s).control = s.control ∧
    (assessLine bs s).queueEmptyReports = s.queueEmptyReports ∧
    (assessLine bs s).monitor = s.monitor ∧
    (assessLine bs s).port = s.port ∧
    (assessLine bs s).descriptor = s.descriptor ∧
    (assessLine bs s).sequencer = s.sequencer ∧
    (assessLine bs s).memory = s.memory ∧
    (assessLine bs s).now = s.now ∧
    (assessLine bs s).freeIndex = s.freeIndex := by
  unfold assessLine; try dsimp only
  (repeat' split) <;> simp

/-- The fields that `applyAtStart` leaves as they are. -/
@[simp] theorem applyAtStart_frame (s : State) :
    (applyAtStart s).pending = s.pending ∧
    (applyAtStart s).porAsserted = s.porAsserted ∧
    (applyAtStart s).pins = s.pins ∧
    (applyAtStart s).host = s.host ∧
    (applyAtStart s).queue = s.queue ∧
    (applyAtStart s).control = s.control ∧
    (applyAtStart s).queueEmptyReports = s.queueEmptyReports ∧
    (applyAtStart s).engine = s.engine ∧
    (applyAtStart s).port = s.port ∧
    (applyAtStart s).writer = s.writer ∧
    (applyAtStart s).sequencer = s.sequencer ∧
    (applyAtStart s).memory = s.memory ∧
    (applyAtStart s).now = s.now ∧
    (applyAtStart s).freeIndex = s.freeIndex := by
  unfold applyAtStart; try dsimp only
  (repeat' split) <;> simp

/-- The fields that `beginStartWrite` leaves as they are. -/
@[simp] theorem beginStartWrite_frame (s : State) :
    (beginStartWrite s).pending = s.pending ∧
    (beginStartWrite s).porAsserted = s.porAsserted ∧
    (beginStartWrite s).pins = s.pins ∧
    (beginStartWrite s).queueEmptyReports = s.queueEmptyReports ∧
    (beginStartWrite s).now = s.now := by
  unfold beginStartWrite; simp

/-- The fields that `finishStartLoad` leaves as they are. -/
@[simp] theorem finishStartLoad_frame (s : State) :
    (finishStartLoad s).pending = s.pending ∧
    (finishStartLoad s).porAsserted = s.porAsserted ∧
    (finishStartLoad s).pins = s.pins ∧
    (finishStartLoad s).queueEmptyReports = s.queueEmptyReports ∧
    (finishStartLoad s).now = s.now := by
  unfold finishStartLoad measure; (try dsimp only)
  split <;> simp

/-- The fields that `continueStartLoad` leaves as they are. -/
@[simp] theorem continueStartLoad_frame (s : State) :
    (continueStartLoad s).pending = s.pending ∧
    (continueStartLoad s).porAsserted = s.porAsserted ∧
    (continueStartLoad s).pins = s.pins ∧
    (continueStartLoad s).queueEmptyReports = s.queueEmptyReports ∧
    (continueStartLoad s).now = s.now := by
  unfold continueStartLoad; (try dsimp only)
  split <;> simp

/-- The fields that `continueStatusRead` leaves as they are. -/
@[simp] theorem continueStatusRead_frame (s : State) :
    (continueStatusRead s).pending = s.pending ∧
    (continueStatusRead s).porAsserted = s.porAsserted ∧
    (continueStatusRead s).pins = s.pins ∧
    (continueStatusRead s).queueEmptyReports = s.queueEmptyReports ∧
    (continueStatusRead s).now = s.now := by
  unfold continueStatusRead; (try dsimp only)
  split <;> simp

/-- The fields that `chooseFirstMode` leaves as they are. -/
@[simp] theorem chooseFirstMode_frame (s : State) :
    (chooseFirstMode s).pending = s.pending ∧
    (chooseFirstMode s).porAsserted = s.porAsserted ∧
    (chooseFirstMode s).pins = s.pins ∧
    (chooseFirstMode s).queueEmptyReports = s.queueEmptyReports ∧
    (chooseFirstMode s).now = s.now := by
  unfold chooseFirstMode; (try dsimp only)
  split <;> simp

/-- What `powerOn` leaves as it is: what is not the blocks', and the snapshot's bytes (R139), the latch not
valid. -/
@[simp] theorem powerOn_frame (s : State) :
    (powerOn s).pending = s.pending ∧
    (powerOn s).pins = s.pins ∧
    (powerOn s).memory = s.memory ∧
    (powerOn s).now = s.now ∧
    (powerOn s).freeIndex = s.freeIndex ∧
    (powerOn s).status.snapshot = s.status.snapshot ∧
    (powerOn s).status.snapshotValid = false :=
  ⟨rfl, rfl, rfl, rfl, rfl, rfl, rfl⟩

end Sys2Proof.Machine
end

