-- ==== Sys2Proof/Laws/CompletionFrames.lean ====
section
/-! SUPPORT. For each operation at the end of an access, the fields of State that it leaves as they are. -/

namespace Sys2Proof.Machine

open Sys2Proof

/-- The fields that `writerIdle` leaves as they are. -/
@[simp] theorem writerIdle_frame (s : State) :
    (writerIdle s).pending = s.pending ∧
    (writerIdle s).porAsserted = s.porAsserted ∧
    (writerIdle s).pins = s.pins ∧
    (writerIdle s).host = s.host ∧
    (writerIdle s).queue = s.queue ∧
    (writerIdle s).control = s.control ∧
    (writerIdle s).queueEmptyReports = s.queueEmptyReports ∧
    (writerIdle s).monitor = s.monitor ∧
    (writerIdle s).engine = s.engine ∧
    (writerIdle s).port = s.port ∧
    (writerIdle s).status = s.status ∧
    (writerIdle s).descriptor = s.descriptor ∧
    (writerIdle s).sequencer = s.sequencer ∧
    (writerIdle s).memory = s.memory ∧
    (writerIdle s).now = s.now ∧
    (writerIdle s).freeIndex = s.freeIndex := by
  unfold writerIdle; simp

/-- The fields that `beginPending` leaves as they are. -/
@[simp] theorem beginPending_frame (s : State) :
    (beginPending s).pending = s.pending ∧
    (beginPending s).porAsserted = s.porAsserted ∧
    (beginPending s).pins = s.pins ∧
    (beginPending s).host = s.host ∧
    (beginPending s).queue = s.queue ∧
    (beginPending s).queueEmptyReports = s.queueEmptyReports ∧
    (beginPending s).monitor = s.monitor ∧
    (beginPending s).status = s.status ∧
    (beginPending s).descriptor = s.descriptor ∧
    (beginPending s).sequencer = s.sequencer ∧
    (beginPending s).now = s.now ∧
    (beginPending s).freeIndex = s.freeIndex := by
  unfold beginPending
  try dsimp only
  (repeat' split) <;> simp

/-- The fields that `awaitedEnded` leaves as they are. -/
@[simp] theorem awaitedEnded_frame (k : AwaitedKind) (s : State) :
    (awaitedEnded k s).pending = s.pending ∧
    (awaitedEnded k s).porAsserted = s.porAsserted ∧
    (awaitedEnded k s).pins = s.pins ∧
    (awaitedEnded k s).queueEmptyReports = s.queueEmptyReports ∧
    (awaitedEnded k s).sequencer = s.sequencer ∧
    (awaitedEnded k s).now = s.now := by
  unfold awaitedEnded; (try dsimp only)
  split <;> simp

/-- The fields that `engineStatusEnded` leaves as they are. -/
@[simp] theorem engineStatusEnded_frame (s : State) :
    (engineStatusEnded s).pending = s.pending ∧
    (engineStatusEnded s).porAsserted = s.porAsserted ∧
    (engineStatusEnded s).pins = s.pins ∧
    (engineStatusEnded s).host = s.host ∧
    (engineStatusEnded s).control = s.control ∧
    (engineStatusEnded s).queueEmptyReports = s.queueEmptyReports ∧
    (engineStatusEnded s).monitor = s.monitor ∧
    (engineStatusEnded s).status = s.status ∧
    (engineStatusEnded s).writer = s.writer ∧
    (engineStatusEnded s).descriptor = s.descriptor ∧
    (engineStatusEnded s).sequencer = s.sequencer ∧
    (engineStatusEnded s).now = s.now ∧
    (engineStatusEnded s).freeIndex = s.freeIndex := by
  unfold engineStatusEnded; simp

/-- The fields that `reportEnd` leaves as they are. -/
@[simp] theorem reportEnd_frame (s : State) :
    (reportEnd s).pending = s.pending ∧
    (reportEnd s).porAsserted = s.porAsserted ∧
    (reportEnd s).pins = s.pins ∧
    (reportEnd s).queueEmptyReports = s.queueEmptyReports ∧
    (reportEnd s).sequencer = s.sequencer ∧
    (reportEnd s).now = s.now := by
  unfold reportEnd; try dsimp only
  (repeat' split) <;> simp

/-- The fields that `statusWriteEnded` leaves as they are. -/
@[simp] theorem statusWriteEnded_frame (s : State) :
    (statusWriteEnded s).pending = s.pending ∧
    (statusWriteEnded s).porAsserted = s.porAsserted ∧
    (statusWriteEnded s).pins = s.pins ∧
    (statusWriteEnded s).queueEmptyReports = s.queueEmptyReports ∧
    (statusWriteEnded s).now = s.now := by
  unfold statusWriteEnded; try dsimp only
  (repeat' split) <;> simp

/-- The fields that `recordDone` leaves as they are. -/
@[simp] theorem recordDone_frame (s : State) :
    (recordDone s).pending = s.pending ∧
    (recordDone s).porAsserted = s.porAsserted ∧
    (recordDone s).pins = s.pins ∧
    (recordDone s).host = s.host ∧
    (recordDone s).queue = s.queue ∧
    (recordDone s).control = s.control ∧
    (recordDone s).queueEmptyReports = s.queueEmptyReports ∧
    (recordDone s).monitor = s.monitor ∧
    (recordDone s).engine = s.engine ∧
    (recordDone s).port = s.port ∧
    (recordDone s).descriptor = s.descriptor ∧
    (recordDone s).sequencer = s.sequencer ∧
    (recordDone s).memory = s.memory ∧
    (recordDone s).now = s.now ∧
    (recordDone s).freeIndex = s.freeIndex := by
  unfold recordDone; simp

/-- The fields that `statusCompletion` leaves as they are. -/
@[simp] theorem statusCompletion_frame (c : Completion) (s : State) :
    (statusCompletion c s).pending = s.pending ∧
    (statusCompletion c s).porAsserted = s.porAsserted ∧
    (statusCompletion c s).pins = s.pins ∧
    (statusCompletion c s).queueEmptyReports = s.queueEmptyReports ∧
    (statusCompletion c s).now = s.now := by
  unfold statusCompletion
  try dsimp only
  (repeat' split) <;> simp

/-- The fields that `reloadByte` leaves as they are. -/
@[simp] theorem reloadByte_frame (b : Byte) (s : State) :
    (reloadByte b s).pending = s.pending ∧
    (reloadByte b s).porAsserted = s.porAsserted ∧
    (reloadByte b s).pins = s.pins ∧
    (reloadByte b s).control = s.control ∧
    (reloadByte b s).queueEmptyReports = s.queueEmptyReports ∧
    (reloadByte b s).writer = s.writer ∧
    (reloadByte b s).sequencer = s.sequencer ∧
    (reloadByte b s).now = s.now := by
  unfold reloadByte; simp

/-- The fields that `loadCompletion` leaves as they are. -/
@[simp] theorem loadCompletion_frame (b : Byte) (s : State) :
    (loadCompletion b s).pending = s.pending ∧
    (loadCompletion b s).porAsserted = s.porAsserted ∧
    (loadCompletion b s).pins = s.pins ∧
    (loadCompletion b s).queueEmptyReports = s.queueEmptyReports ∧
    (loadCompletion b s).now = s.now := by
  unfold loadCompletion
  try dsimp only
  (repeat' split) <;> simp

/-- The fields that `writeTakesEffect` leaves as they are. -/
@[simp] theorem writeTakesEffect_frame (a : Addr) (b : Byte) (s : State) :
    (writeTakesEffect a b s).pending = s.pending ∧
    (writeTakesEffect a b s).porAsserted = s.porAsserted ∧
    (writeTakesEffect a b s).pins = s.pins ∧
    (writeTakesEffect a b s).host = s.host ∧
    (writeTakesEffect a b s).queue = s.queue ∧
    (writeTakesEffect a b s).control = s.control ∧
    (writeTakesEffect a b s).queueEmptyReports = s.queueEmptyReports ∧
    (writeTakesEffect a b s).writer = s.writer ∧
    (writeTakesEffect a b s).sequencer = s.sequencer ∧
    (writeTakesEffect a b s).now = s.now ∧
    (writeTakesEffect a b s).freeIndex = s.freeIndex := by
  unfold writeTakesEffect
  try dsimp only
  (repeat' split) <;> simp

/-- The fields that `orphanCompletion` leaves as they are. -/
@[simp] theorem orphanCompletion_frame (op : BusOp) (c : Completion) (s : State) :
    (orphanCompletion op c s).pending = s.pending ∧
    (orphanCompletion op c s).porAsserted = s.porAsserted ∧
    (orphanCompletion op c s).pins = s.pins ∧
    (orphanCompletion op c s).control = s.control ∧
    (orphanCompletion op c s).queueEmptyReports = s.queueEmptyReports ∧
    (orphanCompletion op c s).writer = s.writer ∧
    (orphanCompletion op c s).sequencer = s.sequencer ∧
    (orphanCompletion op c s).now = s.now := by
  unfold orphanCompletion; try dsimp only
  (repeat' split) <;> simp

/-- The fields that `hostCompletion` leaves as they are. -/
@[simp] theorem hostCompletion_frame (op : BusOp) (c : Completion) (s : State) :
    (hostCompletion op c s).pending = s.pending ∧
    (hostCompletion op c s).porAsserted = s.porAsserted ∧
    (hostCompletion op c s).pins = s.pins ∧
    (hostCompletion op c s).control = s.control ∧
    (hostCompletion op c s).queueEmptyReports = s.queueEmptyReports ∧
    (hostCompletion op c s).writer = s.writer ∧
    (hostCompletion op c s).sequencer = s.sequencer ∧
    (hostCompletion op c s).now = s.now := by
  unfold hostCompletion
  try dsimp only
  (repeat' split) <;> simp

/-- The fields that `reportWritten` leaves as they are. -/
@[simp] theorem reportWritten_frame (w : DrainWrite) (aw : Bool) (s : State) :
    (reportWritten w aw s).pending = s.pending ∧
    (reportWritten w aw s).porAsserted = s.porAsserted ∧
    (reportWritten w aw s).pins = s.pins ∧
    (reportWritten w aw s).sequencer = s.sequencer ∧
    (reportWritten w aw s).now = s.now := by
  unfold reportWritten; try dsimp only
  (repeat' split) <;> simp

/-- The fields that `drainDone` leaves as they are. -/
@[simp] theorem drainDone_frame (w : DrainWrite) (s : State) :
    (drainDone w s).pending = s.pending ∧
    (drainDone w s).porAsserted = s.porAsserted ∧
    (drainDone w s).pins = s.pins ∧
    (drainDone w s).sequencer = s.sequencer ∧
    (drainDone w s).now = s.now := by
  unfold drainDone; simp

/-- The fields that `dropEntry` leaves as they are. -/
@[simp] theorem dropEntry_frame (s : State) :
    (dropEntry s).pending = s.pending ∧
    (dropEntry s).porAsserted = s.porAsserted ∧
    (dropEntry s).pins = s.pins ∧
    (dropEntry s).sequencer = s.sequencer ∧
    (dropEntry s).now = s.now := by
  unfold dropEntry; simp

/-- The fields that `drainFault` leaves as they are. -/
@[simp] theorem drainFault_frame (s : State) :
    (drainFault s).pending = s.pending ∧
    (drainFault s).porAsserted = s.porAsserted ∧
    (drainFault s).pins = s.pins ∧
    (drainFault s).sequencer = s.sequencer ∧
    (drainFault s).now = s.now := by
  unfold drainFault; (try dsimp only)
  split <;> simp

/-- The fields that `stoppingCompletion` leaves as they are. -/
@[simp] theorem stoppingCompletion_frame (w : DrainWrite) (c : Completion) (s : State) :
    (stoppingCompletion w c s).pending = s.pending ∧
    (stoppingCompletion w c s).porAsserted = s.porAsserted ∧
    (stoppingCompletion w c s).pins = s.pins ∧
    (stoppingCompletion w c s).sequencer = s.sequencer ∧
    (stoppingCompletion w c s).now = s.now := by
  unfold stoppingCompletion; split <;> simp

/-- The fields that `drainCompletion` leaves as they are. -/
@[simp] theorem drainCompletion_frame (c : Completion) (s : State) :
    (drainCompletion c s).pending = s.pending ∧
    (drainCompletion c s).porAsserted = s.porAsserted ∧
    (drainCompletion c s).pins = s.pins ∧
    (drainCompletion c s).sequencer = s.sequencer ∧
    (drainCompletion c s).now = s.now := by
  unfold drainCompletion
  try dsimp only
  (repeat' split) <;> simp

/-- The fields that `deliver` leaves as they are. -/
@[simp] theorem deliver_frame (acc : PortAccess) (c : Completion) (s : State) :
    (deliver acc c s).pending = s.pending ∧
    (deliver acc c s).porAsserted = s.porAsserted ∧
    (deliver acc c s).pins = s.pins ∧
    (deliver acc c s).now = s.now := by
  unfold deliver
  try dsimp only
  (repeat' split) <;> simp

/-- The fields that `leaveMemory` leaves as they are. -/
@[simp] theorem leaveMemory_frame (acc : PortAccess) (c : Completion) (s : State) :
    (leaveMemory acc c s).pending = s.pending ∧
    (leaveMemory acc c s).porAsserted = s.porAsserted ∧
    (leaveMemory acc c s).pins = s.pins ∧
    (leaveMemory acc c s).host = s.host ∧
    (leaveMemory acc c s).queue = s.queue ∧
    (leaveMemory acc c s).control = s.control ∧
    (leaveMemory acc c s).queueEmptyReports = s.queueEmptyReports ∧
    (leaveMemory acc c s).monitor = s.monitor ∧
    (leaveMemory acc c s).engine = s.engine ∧
    (leaveMemory acc c s).port = s.port ∧
    (leaveMemory acc c s).status = s.status ∧
    (leaveMemory acc c s).writer = s.writer ∧
    (leaveMemory acc c s).descriptor = s.descriptor ∧
    (leaveMemory acc c s).sequencer = s.sequencer ∧
    (leaveMemory acc c s).now = s.now := by
  unfold leaveMemory
  try dsimp only
  (repeat' split) <;> simp

/-- The fields that `endAccess` leaves as they are. -/
@[simp] theorem endAccess_frame (acc : PortAccess) (c : Completion) (s : State) :
    (endAccess acc c s).pending = s.pending ∧
    (endAccess acc c s).porAsserted = s.porAsserted ∧
    (endAccess acc c s).pins = s.pins ∧
    (endAccess acc c s).now = s.now := by
  unfold endAccess; simp

/-- The fields that `setPhase` leaves as they are. -/
@[simp] theorem setPhase_frame (acc : PortAccess) (p : Phase) (s : State) :
    (setPhase acc p s).pending = s.pending ∧
    (setPhase acc p s).porAsserted = s.porAsserted ∧
    (setPhase acc p s).pins = s.pins ∧
    (setPhase acc p s).host = s.host ∧
    (setPhase acc p s).queue = s.queue ∧
    (setPhase acc p s).control = s.control ∧
    (setPhase acc p s).queueEmptyReports = s.queueEmptyReports ∧
    (setPhase acc p s).monitor = s.monitor ∧
    (setPhase acc p s).engine = s.engine ∧
    (setPhase acc p s).status = s.status ∧
    (setPhase acc p s).writer = s.writer ∧
    (setPhase acc p s).descriptor = s.descriptor ∧
    (setPhase acc p s).sequencer = s.sequencer ∧
    (setPhase acc p s).memory = s.memory ∧
    (setPhase acc p s).now = s.now ∧
    (setPhase acc p s).freeIndex = s.freeIndex := by
  unfold setPhase; simp

/-- The fields that `endWriteStrobe` leaves as they are. -/
@[simp] theorem endWriteStrobe_frame (acc : PortAccess) (late mrdy : Bool) (s : State) :
    (endWriteStrobe acc late mrdy s).pending = s.pending ∧
    (endWriteStrobe acc late mrdy s).porAsserted = s.porAsserted ∧
    (endWriteStrobe acc late mrdy s).pins = s.pins ∧
    (endWriteStrobe acc late mrdy s).now = s.now := by
  unfold endWriteStrobe
  try dsimp only
  (repeat' split) <;> simp

/-- The fields that `reachTimeout` leaves as they are. -/
@[simp] theorem reachTimeout_frame (acc : PortAccess) (s : State) :
    (reachTimeout acc s).pending = s.pending ∧
    (reachTimeout acc s).porAsserted = s.porAsserted ∧
    (reachTimeout acc s).pins = s.pins ∧
    (reachTimeout acc s).now = s.now := by
  unfold reachTimeout
  try dsimp only
  (repeat' split) <;> simp

end Sys2Proof.Machine
end

