-- ==== Sys2Proof/Laws/Memory.lean ====
section
/-! SUPPORT. The memory and byte lists: reading after writing, and the canonical form kept by every
memory operation. -/

namespace Sys2Proof.Machine

open Sys2Proof

/-! ## Byte lists in rising key order -/

/-- The keys of a byte list rise strictly. -/
abbrev rising (cs : List Host.Cell) : Prop := (cs.map Prod.fst).Pairwise (· < ·)

theorem mem_cellSet {cs : List Host.Cell} {k : Nat} {v : Byte} {c : Host.Cell}
    (h : c ∈ cellSet cs k v) : c = (k, v) ∨ c ∈ cs := by
  induction cs with
  | nil => simpa [cellSet] using h
  | cons d ds ih =>
    unfold cellSet at h
    split at h
    · simpa using h
    · split at h
      · rcases List.mem_cons.1 h with h | h
        · exact .inl h
        · exact .inr (List.mem_cons_of_mem _ h)
      · rcases List.mem_cons.1 h with h | h
        · exact .inr (h ▸ List.mem_cons_self)
        · exact (ih h).imp id (List.mem_cons_of_mem _)

theorem cellSet_rising {cs : List Host.Cell} (k : Nat) (v : Byte) (h : rising cs) :
    rising (cellSet cs k v) := by
  induction cs with
  | nil => simp [cellSet, rising]
  | cons d ds ih =>
    simp only [rising, List.map_cons, List.pairwise_cons] at h
    unfold cellSet
    split
    · next hk =>
      simp only [rising, List.map_cons, List.pairwise_cons]
      refine ⟨fun x hx => ?_, h.1, h.2⟩
      rcases List.mem_cons.1 hx with rfl | hx
      · exact hk
      · exact lt_trans hk (h.1 x hx)
    · split
      · next hk =>
        simp only [rising, List.map_cons, List.pairwise_cons]
        exact ⟨fun x hx => hk ▸ h.1 x hx, h.2⟩
      · next h1 h2 =>
        simp only [rising, List.map_cons, List.pairwise_cons]
        refine ⟨fun x hx => ?_, ih h.2⟩
        obtain ⟨c, hc, rfl⟩ := List.mem_map.1 hx
        rcases mem_cellSet hc with rfl | hc
        · simp only []; omega
        · exact h.1 _ (List.mem_map_of_mem hc)

theorem mem_cellDrop {cs : List Host.Cell} {k : Nat} {c : Host.Cell} :
    c ∈ cellDrop cs k ↔ c ∈ cs ∧ c.1 ≠ k := by
  induction cs with
  | nil => simp [cellDrop]
  | cons d ds ih =>
    unfold cellDrop
    split
    · next hk =>
      rw [ih, List.mem_cons]
      constructor
      · exact fun h => ⟨.inr h.1, h.2⟩
      · rintro ⟨rfl | h, hn⟩
        · exact absurd hk hn
        · exact ⟨h, hn⟩
    · next hk =>
      rw [List.mem_cons, ih, List.mem_cons]
      constructor
      · rintro (rfl | h)
        · exact ⟨.inl rfl, hk⟩
        · exact ⟨.inr h.1, h.2⟩
      · rintro ⟨rfl | h, hn⟩
        · exact .inl rfl
        · exact .inr ⟨h, hn⟩

theorem cellDrop_sublist (cs : List Host.Cell) (k : Nat) : (cellDrop cs k).Sublist cs := by
  induction cs with
  | nil => exact List.Sublist.slnil
  | cons d ds ih =>
    unfold cellDrop
    split
    · exact ih.cons _
    · exact ih.cons_cons _

theorem cellDrop_rising {cs : List Host.Cell} (k : Nat) (h : rising cs) :
    rising (cellDrop cs k) :=
  h.sublist ((cellDrop_sublist cs k).map _)

theorem cellGet_cellSet_same (cs : List Host.Cell) (k : Nat) (v : Byte) :
    cellGet (cellSet cs k v) k = some v := by
  induction cs with
  | nil => simp [cellSet, cellGet]
  | cons d ds ih =>
    unfold cellSet
    split
    · simp [cellGet]
    · split
      · simp [cellGet]
      · next h1 h2 =>
        rw [cellGet, if_neg (fun e => h2 e.symm), ih]

theorem cellGet_cellSet_other (cs : List Host.Cell) {k j : Nat} (v : Byte) (h : j ≠ k) :
    cellGet (cellSet cs k v) j = cellGet cs j := by
  induction cs with
  | nil => simp [cellSet, cellGet, Ne.symm h]
  | cons d ds ih =>
    unfold cellSet
    split
    · simp [cellGet, Ne.symm h]
    · split
      · next h1 h2 => simp [cellGet, Ne.symm h, h2 ▸ Ne.symm h]
      · simp [cellGet, ih]

theorem cellGet_cellDrop_same (cs : List Host.Cell) (k : Nat) : cellGet (cellDrop cs k) k = none := by
  induction cs with
  | nil => rfl
  | cons d ds ih =>
    unfold cellDrop
    split
    · exact ih
    · next h => simp [cellGet, h, ih]

theorem cellGet_cellDrop_other (cs : List Host.Cell) {k j : Nat} (h : j ≠ k) :
    cellGet (cellDrop cs k) j = cellGet cs j := by
  induction cs with
  | nil => rfl
  | cons d ds ih =>
    unfold cellDrop
    split
    · next hk => rw [ih, cellGet, if_neg (by omega)]
    · simp [cellGet, ih]

/-! ## Key lists -/

theorem mem_keyAdd {ks : List Nat} {k j : Nat} : j ∈ keyAdd ks k ↔ j = k ∨ j ∈ ks := by
  induction ks with
  | nil => simp [keyAdd]
  | cons d ds ih =>
    unfold keyAdd
    split
    · simp
    · split
      · next h1 h2 => subst h2; simp
      · simp only [List.mem_cons, ih]; tauto

theorem keyAdd_rising {ks : List Nat} (k : Nat) (h : ks.Pairwise (· < ·)) :
    (keyAdd ks k).Pairwise (· < ·) := by
  induction ks with
  | nil => simp [keyAdd]
  | cons d ds ih =>
    rw [List.pairwise_cons] at h
    unfold keyAdd
    split
    · next hk =>
      refine List.pairwise_cons.2 ⟨fun x hx => ?_, List.pairwise_cons.2 h⟩
      rcases List.mem_cons.1 hx with rfl | hx
      · exact hk
      · exact lt_trans hk (h.1 x hx)
    · split
      · exact List.pairwise_cons.2 h
      · next h1 h2 =>
        refine List.pairwise_cons.2 ⟨fun x hx => ?_, ih h.2⟩
        rcases mem_keyAdd.1 hx with rfl | hx
        · omega
        · exact h.1 x hx

theorem mem_keyDrop {ks : List Nat} {k j : Nat} : j ∈ keyDrop ks k ↔ j ∈ ks ∧ j ≠ k := by
  induction ks with
  | nil => simp [keyDrop]
  | cons d ds ih =>
    unfold keyDrop
    split
    · next h =>
      subst h
      rw [ih, List.mem_cons]
      constructor
      · exact fun h => ⟨.inr h.1, h.2⟩
      · rintro ⟨rfl | h, hn⟩
        · exact absurd rfl hn
        · exact ⟨h, hn⟩
    · next h =>
      rw [List.mem_cons, ih, List.mem_cons]
      constructor
      · rintro (rfl | h')
        · exact ⟨.inl rfl, h⟩
        · exact ⟨.inr h'.1, h'.2⟩
      · rintro ⟨rfl | h', hn⟩
        · exact .inl rfl
        · exact .inr ⟨h', hn⟩

theorem keyDrop_rising {ks : List Nat} (k : Nat) (h : ks.Pairwise (· < ·)) :
    (keyDrop ks k).Pairwise (· < ·) := by
  refine h.sublist ?_
  clear h
  induction ks with
  | nil => exact List.Sublist.slnil
  | cons d ds ih =>
    unfold keyDrop
    split
    · exact ih.cons _
    · exact ih.cons_cons _

/-! ## The memory -/

/-- A done write is read back (R114). -/
theorem memRead_memWrite_same (m : Memory) (a : Addr) (b : Byte) :
    memRead (memWrite m a b) a = some b := by
  unfold memRead memWrite
  rw [if_neg (by simp [mem_keyDrop])]
  split
  · next h => rw [cellGet_cellDrop_same, h]; rfl
  · rw [cellGet_cellSet_same]; rfl

/-- A done write leaves every other address as it was (R114). -/
theorem memRead_memWrite_other (m : Memory) {a a' : Addr} (b : Byte) (h : a' ≠ a) :
    memRead (memWrite m a b) a' = memRead m a' := by
  have hn : a'.toNat ≠ a.toNat := fun e => h (BitVec.eq_of_toNat_eq e)
  have hc : cellGet (if b = blankByte then cellDrop m.cells a.toNat
      else cellSet m.cells a.toNat b) a'.toNat = cellGet m.cells a'.toNat := by
    split
    · exact cellGet_cellDrop_other _ hn
    · exact cellGet_cellSet_other _ _ hn
  simp only [memRead, memWrite, mem_keyDrop, hc, hn, ne_eq, not_false_eq_true, and_true]

/-- From a write strobe on, the byte is unknown (R114). -/
theorem memRead_memForget_same (m : Memory) (a : Addr) : memRead (memForget m a) a = none := by
  simp [memRead, memForget, mem_keyAdd]

/-- A write strobe leaves every other address as it was (R114). -/
theorem memRead_memForget_other (m : Memory) {a a' : Addr} (h : a' ≠ a) :
    memRead (memForget m a) a' = memRead m a' := by
  have hn : a'.toNat ≠ a.toNat := fun e => h (BitVec.eq_of_toNat_eq e)
  simp only [memRead, memForget, mem_keyAdd, hn, false_or, cellGet_cellDrop_other _ hn]

/-- A done write keeps the canonical form. -/
theorem memWrite_wf {m : Memory} (a : Addr) (b : Byte) (h : m.wf) : (memWrite m a b).wf := by
  obtain ⟨h1, h2, h3, h4⟩ := h
  have ha : a.toNat < addressCount := a.isLt
  refine ⟨?_, ?_, keyDrop_rising _ h3, ?_⟩
  · unfold memWrite
    split
    · exact cellDrop_rising _ h1
    · exact cellSet_rising _ _ h1
  · intro c hc
    unfold memWrite at hc
    split at hc
    · exact h2 c (mem_cellDrop.1 hc).1
    · next hb =>
      rcases mem_cellSet hc with rfl | hc
      · exact ⟨hb, ha⟩
      · exact h2 c hc
  · intro j hj
    obtain ⟨hj, hne⟩ := mem_keyDrop.1 hj
    refine ⟨(h4 j hj).1, fun hm => ?_⟩
    obtain ⟨c, hc, rfl⟩ := List.mem_map.1 hm
    unfold memWrite at hc
    split at hc
    · exact (h4 _ hj).2 (List.mem_map_of_mem (mem_cellDrop.1 hc).1)
    · rcases mem_cellSet hc with rfl | hc
      · exact hne rfl
      · exact (h4 _ hj).2 (List.mem_map_of_mem hc)

/-- A write strobe keeps the canonical form. -/
theorem memForget_wf {m : Memory} (a : Addr) (h : m.wf) : (memForget m a).wf := by
  obtain ⟨h1, h2, h3, h4⟩ := h
  refine ⟨cellDrop_rising _ h1, fun c hc => h2 c (mem_cellDrop.1 hc).1, keyAdd_rising _ h3, ?_⟩
  intro j hj
  rcases mem_keyAdd.1 hj with rfl | hj
  · refine ⟨a.isLt, fun hm => ?_⟩
    obtain ⟨c, hc, he⟩ := List.mem_map.1 hm
    exact (mem_cellDrop.1 hc).2 he
  · refine ⟨(h4 j hj).1, fun hm => ?_⟩
    obtain ⟨c, hc, rfl⟩ := List.mem_map.1 hm
    exact (h4 _ hj).2 (List.mem_map_of_mem (mem_cellDrop.1 hc).1)

/-- The memory after power-on has the canonical form. -/
theorem reset_memory_wf : State.reset.memory.wf := by decide

/-- The address below, where there is one, is a neighbour. -/
theorem neighbours_below {a : Addr} (h : a ≠ 0x00000#20) : neighbours a (a - 1#20) := by
  left; bv_omega

/-- The address above, where there is one, is a neighbour. -/
theorem neighbours_above {a : Addr} (h : a ≠ 0xFFFFF#20) : neighbours a (a + 1#20) := by
  right; bv_omega

/-- A disturbance leaves every byte but the two neighbours (R111). -/
theorem memRead_memDisturb_other {a a' : Addr} (m : Memory) (below above : Bool)
    (h : ¬ neighbours a a') : memRead (memDisturb m a below above) a' = memRead m a' := by
  have hb : a ≠ 0x00000#20 → a' ≠ a - 1#20 := fun h0 he => h (he ▸ neighbours_below h0)
  have ha : a ≠ 0xFFFFF#20 → a' ≠ a + 1#20 := fun h0 he => h (he ▸ neighbours_above h0)
  unfold memDisturb
  simp only [Bool.and_eq_true, bne_iff_ne]
  split
  · next h1 =>
    rw [memRead_memForget_other _ (ha h1.2)]
    split
    · next h2 => exact memRead_memForget_other _ (hb h2.2)
    · rfl
  · split
    · next h2 => exact memRead_memForget_other _ (hb h2.2)
    · rfl

/-- A neighbour that is disturbed is unknown, and one that is not reads as before (R111). -/
theorem memRead_memDisturb {a a' : Addr} (m : Memory) (below above : Bool) :
    memRead (memDisturb m a below above) a' = memRead m a' ∨
      memRead (memDisturb m a below above) a' = none := by
  have key : ∀ (m : Memory) (x : Addr),
      memRead (memForget m x) a' = memRead m a' ∨ memRead (memForget m x) a' = none := by
    intro m x
    by_cases h : a' = x
    · subst h; exact .inr (memRead_memForget_same _ _)
    · exact .inl (memRead_memForget_other _ h)
  unfold memDisturb
  dsimp only
  split <;> split
  · rcases key (memForget m (a - 1#20)) (a + 1#20) with h | h
    · rw [h]; exact key m _
    · exact .inr h
  · exact key m _
  · exact key m _
  · exact .inl rfl

/-- A disturbance keeps the canonical form. -/
theorem memDisturb_wf {m : Memory} (h : m.wf) (a : Addr) (below above : Bool) :
    (memDisturb m a below above).wf := by
  unfold memDisturb
  dsimp only
  split <;> split
  · exact memForget_wf _ (memForget_wf _ h)
  · exact memForget_wf _ h
  · exact memForget_wf _ h
  · exact h

end Sys2Proof.Machine
end

