-- ==== Sys2Proof/Laws/Queue.lean ====
section
/-! SUPPORT. The hold queue: what each request does to the order, the occupancy and the overlay, and
that each keeps the queue well-formed (R1, R2, R4). -/

namespace Sys2Proof.Machine

open Sys2Proof

/-! ## Addresses -/

/-- An address is its line and its offset (0.5). -/
theorem addr_ext {a b : Addr} (hl : lineOf a = lineOf b) (ho : offsetOf a = offsetOf b) : a = b := by
  have h1 : (lineOf a).toNat = (lineOf b).toNat := congrArg _ hl
  simp only [lineOf, BitVec.extractLsb'_toNat] at h1
  simp only [offsetOf, BitVec.extractLsb'_toNat] at ho
  have ha := a.isLt
  have hb := b.isLt
  apply BitVec.eq_of_toNat_eq
  simp only [Nat.shiftRight_eq_div_pow] at h1 ho
  omega

theorem offsetOf_lt (a : Addr) : offsetOf a < 16 := (a.extractLsb' 0 4).isLt

@[simp] theorem lineOf_addrOf (line : Line) (n : Nat) : lineOf (addrOf line n) = line := by
  apply BitVec.eq_of_toNat_eq
  simp only [lineOf, addrOf, BitVec.extractLsb'_toNat, BitVec.toNat_append, BitVec.toNat_ofNat,
    Nat.shiftRight_eq_div_pow]
  have h := line.isLt
  rw [Nat.shiftLeft_eq, Nat.mul_comm, ← Nat.two_pow_add_eq_or_of_lt (Nat.mod_lt _ (by decide))]
  omega

theorem offsetOf_addrOf (line : Line) {n : Nat} (h : n < 16) : offsetOf (addrOf line n) = n := by
  simp only [offsetOf, addrOf, BitVec.extractLsb'_toNat, BitVec.toNat_append, BitVec.toNat_ofNat,
    Nat.shiftRight_eq_div_pow]
  rw [Nat.shiftLeft_eq, Nat.mul_comm, ← Nat.two_pow_add_eq_or_of_lt (Nat.mod_lt _ (by decide))]
  omega

/-! ## Entries -/

theorem data_wf_iff (line : Line) (bytes : List Host.Cell) (st : EntryState) :
    (Entry.mk (.data line bytes) st).wf ↔
      line ≠ statusLine ∧ bytes ≠ [] ∧ rising bytes ∧ ∀ c ∈ bytes, c.1 < 16 := Iff.rfl

theorem fence_wf (tag : Byte) (st : EntryState) : (Entry.mk (.fence tag) st).wf := trivial

/-- The state of an entry plays no part in its form. -/
theorem wf_of_body {e e' : Entry} (h : e.wf) (hb : e'.body = e.body) : e'.wf := by
  unfold Entry.wf; rw [hb]; exact h

theorem cellSet_ne_nil (cs : List Host.Cell) (k : Nat) (v : Byte) : cellSet cs k v ≠ [] := by
  cases cs with
  | nil => simp [cellSet]
  | cons d ds => unfold cellSet; split <;> [simp; (split <;> simp)]

theorem put_wf {e : Entry} (offset : Nat) (b : Byte) (h : e.wf) (ho : offset < 16) :
    (e.put offset b).wf := by
  obtain ⟨body, st⟩ := e
  cases body with
  | fence tag => trivial
  | data line bytes =>
    obtain ⟨h1, h2, h3, h4⟩ := h
    refine ⟨h1, cellSet_ne_nil _ _ _, cellSet_rising _ _ h3, fun c hc => ?_⟩
    rcases mem_cellSet hc with rfl | hc
    · exact ho
    · exact h4 c hc

theorem put_state (e : Entry) (offset : Nat) (b : Byte) : (e.put offset b).state = e.state := by
  unfold Entry.put; split <;> rfl

/-! ## Append (R8, R13) -/

/-- An append joins at the young end when a slot is free; else the queue is left as it was (R1, R9). -/
theorem appendEntry_cases (q : List Entry) (body : EntryBody) :
    (q.length < 32 ∧ appendEntry q body = (.appended, q ++ [⟨body, .pending⟩])) ∨
      (32 ≤ q.length ∧ appendEntry q body = (.noSlot, q)) := by
  unfold appendEntry queueCapacity
  split
  · next h => exact .inl ⟨h, rfl⟩
  · next h => exact .inr ⟨by omega, rfl⟩

/-- The youngest entry is looked at first (R23). -/
theorem overlay_append (q : List Entry) (e : Entry) (a : Addr) :
    overlay (q ++ [e]) a = (e.held a).or (overlay q a) := by
  induction q with
  | nil => simp [overlay]
  | cons d ds ih =>
    simp only [List.cons_append, overlay, ih]
    cases e.held a <;> simp

theorem append_wf {q : List Entry} {e : Entry} (h : queueWf q) (hl : q.length < 32) (he : e.wf)
    (hs : e.state = .pending) : queueWf (q ++ [e]) := by
  obtain ⟨-, h2, h3⟩ := h
  refine ⟨by simp [queueCapacity]; omega, fun x hx => ?_, fun x hx => ?_⟩
  · rcases List.mem_append.1 hx with hx | hx
    · exact h2 x hx
    · exact (List.mem_singleton.1 hx) ▸ he
  · cases q with
    | nil => simp at hx
    | cons d ds =>
      rcases List.mem_append.1 (show x ∈ ds ++ [e] from hx) with hx | hx
      · exact h3 x hx
      · exact (List.mem_singleton.1 hx) ▸ hs

theorem appendEntry_wf {q : List Entry} (body : EntryBody) (h : queueWf q)
    (hb : (Entry.mk body .pending).wf) : queueWf (appendEntry q body).2 := by
  rcases appendEntry_cases q body with ⟨hl, he⟩ | ⟨-, he⟩ <;> rw [he]
  · exact append_wf h hl hb rfl
  · exact h

/-! ## Merge (R11, R12) -/

/-- A merge changes one entry in place: a PENDING DATA entry of the line with no FENCE entry and no DATA
entry of the line younger than it (R11, R12). -/
theorem mergeInto_spec {q q' : List Entry} {line : Line} {offset : Nat} {b : Byte}
    (h : mergeInto q line offset b = some q') :
    ∃ older bytes younger,
      q = older ++ ⟨.data line bytes, .pending⟩ :: younger ∧
        q' = older ++ ⟨.data line (cellSet bytes offset b), .pending⟩ :: younger ∧
        (∀ e ∈ younger, e.isFence = false ∧ e.isDataOf line = false) := by
  induction q generalizing q' with
  | nil => simp [mergeInto] at h
  | cons e rest ih =>
    unfold mergeInto at h
    split at h
    · obtain ⟨r, hr, rfl⟩ := Option.map_eq_some_iff.1 h
      obtain ⟨older, bytes, younger, rfl, rfl, hy⟩ := ih hr
      exact ⟨e :: older, bytes, younger, rfl, rfl, hy⟩
    · next hany =>
      split at h
      · next hq =>
        obtain ⟨body, st⟩ := e
        simp only [Bool.and_eq_true, beq_iff_eq, Bool.not_eq_true'] at hq
        obtain ⟨⟨hd, hst⟩, hf⟩ := hq
        subst hst
        cases body with
        | fence tag => simp [Entry.isDataOf] at hd
        | data l bytes =>
          have hl : l = line := by simpa [Entry.isDataOf] using hd
          subst hl
          refine ⟨[], bytes, rest, rfl, ?_, fun x hx => ?_⟩
          · simpa [Entry.put] using h.symm
          · simp only [List.any_eq_true, not_exists, not_and, Bool.not_eq_true] at hany
            rw [List.any_eq_false] at hf
            exact ⟨by simpa using hf x hx, hany x hx⟩
      · cases h

/-- The byte merges exactly where a target qualifies (R11). -/
theorem mergeInto_target {q older younger : List Entry} {line : Line} {bytes : List Host.Cell}
    (h : mergeTarget q line older bytes younger) (offset : Nat) (b : Byte) :
    mergeInto q line offset b =
      some (older ++ ⟨.data line (cellSet bytes offset b), .pending⟩ :: younger) := by
  obtain ⟨rfl, hy⟩ := h
  have hd : younger.any (fun x => x.isDataOf line) = false := by
    rw [List.any_eq_false]
    intro e he
    obtain ⟨body, st⟩ := e
    cases body with
    | fence tag => simp [Entry.isDataOf]
    | data l bs =>
      have := (hy _ he).1 bs
      simp only [ne_eq, EntryBody.data.injEq, and_true] at this
      simpa [Entry.isDataOf] using this
  have hf : younger.any Entry.isFence = false := by
    rw [List.any_eq_false]
    intro e he
    obtain ⟨body, st⟩ := e
    cases body with
    | data l bs => simp [Entry.isFence]
    | fence tag => exact absurd rfl ((hy _ he).2 tag)
  induction older with
  | nil =>
    have he : (Entry.mk (.data line bytes) .pending).isDataOf line = true := by
      simp [Entry.isDataOf]
    simp [mergeInto, hd, hf, he, Entry.put]
  | cons e older ih =>
    have hany : (older ++ ⟨.data line bytes, .pending⟩ :: younger).any
        (fun x => x.isDataOf line) = true := by
      simp [Entry.isDataOf]
    simp [mergeInto, hany, ih]

/-- Some target qualifies exactly where a merge is made (R11). -/
theorem mergeable_iff {q : List Entry} {line : Line} (offset : Nat) (b : Byte) :
    mergeable q line ↔ (mergeInto q line offset b).isSome = true := by
  constructor
  · rintro ⟨older, bytes, younger, h⟩
    rw [mergeInto_target h]; rfl
  · intro h
    obtain ⟨q', hq⟩ := Option.isSome_iff_exists.1 h
    obtain ⟨older, bytes, younger, rfl, -, hy⟩ := mergeInto_spec hq
    refine ⟨older, bytes, younger, rfl, fun e he => ?_⟩
    obtain ⟨hf, hd⟩ := hy e he
    obtain ⟨body, st⟩ := e
    constructor
    · rintro bs rfl; simp [Entry.isDataOf] at hd
    · rintro tag rfl; simp [Entry.isFence] at hf

theorem mergeInto_length {q q' : List Entry} {line : Line} {offset : Nat} {b : Byte}
    (h : mergeInto q line offset b = some q') : q'.length = q.length := by
  obtain ⟨older, bytes, younger, rfl, rfl, -⟩ := mergeInto_spec h
  simp

theorem overlay_append_cons (older younger : List Entry) (e : Entry) (a : Addr) :
    overlay (older ++ e :: younger) a =
      (overlay younger a).or ((e.held a).or (overlay older a)) := by
  induction older with
  | nil => simp only [List.nil_append, overlay]; cases overlay younger a <;> simp
  | cons d ds ih =>
    simp only [List.cons_append, overlay, ih]
    cases overlay younger a <;> cases e.held a <;> simp

theorem overlay_none_of {q : List Entry} {a : Addr}
    (h : ∀ e ∈ q, e.isFence = false ∧ e.isDataOf (lineOf a) = false) : overlay q a = none := by
  induction q with
  | nil => rfl
  | cons e rest ih =>
    simp only [overlay, ih fun x hx => h x (List.mem_cons_of_mem _ hx)]
    obtain ⟨h1, h2⟩ := h e List.mem_cons_self
    obtain ⟨body, st⟩ := e
    cases body with
    | fence tag => simp [Entry.isFence] at h1
    | data l bytes =>
      have : l ≠ lineOf a := by simpa [Entry.isDataOf] using h2
      simp [Entry.held, this]

/-- From the merge on, the overlay supplies the merged byte (R12). -/
theorem overlay_mergeInto_same {q q' : List Entry} {a : Addr} {b : Byte}
    (h : mergeInto q (lineOf a) (offsetOf a) b = some q') : overlay q' a = some b := by
  obtain ⟨older, bytes, younger, rfl, rfl, hy⟩ := mergeInto_spec h
  rw [overlay_append_cons, overlay_none_of hy]
  simp [Entry.held, cellGet_cellSet_same]

/-- A merge leaves the overlay's answer at every other address (R12). -/
theorem overlay_mergeInto_other {q q' : List Entry} {a a' : Addr} {b : Byte}
    (h : mergeInto q (lineOf a) (offsetOf a) b = some q') (hne : a' ≠ a) :
    overlay q' a' = overlay q a' := by
  obtain ⟨older, bytes, younger, rfl, rfl, hy⟩ := mergeInto_spec h
  rw [overlay_append_cons, overlay_append_cons]
  have : (Entry.mk (.data (lineOf a) (cellSet bytes (offsetOf a) b)) .pending).held a' =
      (Entry.mk (.data (lineOf a) bytes) .pending).held a' := by
    simp only [Entry.held]
    split
    · next hl =>
      refine cellGet_cellSet_other _ _ fun ho => hne (addr_ext hl.symm ho)
    · rfl
  rw [this]

theorem mergeInto_wf {q q' : List Entry} {line : Line} {offset : Nat} {b : Byte}
    (h : mergeInto q line offset b = some q') (hw : queueWf q) (ho : offset < 16) : queueWf q' := by
  obtain ⟨hl, h2, h3⟩ := hw
  have hlen := mergeInto_length h
  obtain ⟨older, bytes, younger, rfl, rfl, -⟩ := mergeInto_spec h
  have hold : (Entry.mk (.data line bytes) .pending).wf := h2 _ (by simp)
  refine ⟨hlen ▸ hl, fun x hx => ?_, fun x hx => ?_⟩
  · rcases List.mem_append.1 hx with hx | hx
    · exact h2 x (List.mem_append_left _ hx)
    · rcases List.mem_cons.1 hx with rfl | hx
      · exact put_wf offset b hold ho
      · exact h2 x (by simp [hx])
  · cases older with
    | nil => exact h3 x (by simpa using hx)
    | cons d ds =>
      rcases List.mem_append.1 (show x ∈ ds ++ _ :: younger from hx) with hx | hx
      · exact h3 x (by simp [hx])
      · rcases List.mem_cons.1 hx with rfl | hx
        · rfl
        · exact h3 x (by simp [hx])

/-! ## Write and fence requests (R7 to R9, R13) -/

/-- What a write request can do: merge, append, or find no slot (R7, R8, R9). -/
theorem writeRequest_cases (q : List Entry) (a : Addr) (b : Byte) (merge : Bool) :
    (∃ q', merge = true ∧ mergeInto q (lineOf a) (offsetOf a) b = some q' ∧
        writeRequest q a b merge = (.merged, q')) ∨
      ((merge = true → mergeInto q (lineOf a) (offsetOf a) b = none) ∧
        writeRequest q a b merge = appendEntry q (.data (lineOf a) [(offsetOf a, b)])) := by
  unfold writeRequest
  split
  · next q' h => exact .inl ⟨q', rfl, h, rfl⟩
  · next h => exact .inr ⟨fun hm => Option.eq_none_iff_forall_ne_some.2 fun q' hq => h q' hm hq, rfl⟩

theorem newData_wf (a : Addr) (b : Byte) (h : lineOf a ≠ statusLine) :
    (Entry.mk (.data (lineOf a) [(offsetOf a, b)]) .pending).wf :=
  ⟨h, by simp, by simp, by simpa using offsetOf_lt a⟩

/-- A write or fence presented to the queue keeps it well-formed (R1, R2, R4). -/
theorem presentToQueue_wf {q : List Entry} (a : Addr) (b : Byte) (merge : Bool) (h : queueWf q)
    (ha : inStatusLine a = false) : queueWf (presentToQueue q a b merge).2 := by
  have hl : lineOf a ≠ statusLine := by simpa [inStatusLine] using ha
  unfold presentToQueue
  split
  · exact appendEntry_wf _ h (fence_wf _ _)
  · rcases writeRequest_cases q a b merge with ⟨q', -, hm, he⟩ | ⟨-, he⟩ <;> rw [he]
    · exact mergeInto_wf hm h (offsetOf_lt a)
    · exact appendEntry_wf _ h (newData_wf a b hl)

/-- A presented write is taken unless the queue is full; NO_SLOT leaves the queue as it was and is
answered only with 32 entries held (R9). -/
theorem presentToQueue_cases (q : List Entry) (a : Addr) (b : Byte) (merge : Bool) :
    ((presentToQueue q a b merge).1 = .merged ∧
        (presentToQueue q a b merge).2.length = q.length ∧ q ≠ []) ∨
      ((presentToQueue q a b merge).1 = .appended ∧
        (presentToQueue q a b merge).2.length = q.length + 1 ∧ q.length < 32) ∨
      (presentToQueue q a b merge = (.noSlot, q) ∧ 32 ≤ q.length) := by
  have happ : ∀ body, ((appendEntry q body).1 = .appended ∧
      (appendEntry q body).2.length = q.length + 1 ∧ q.length < 32) ∨
      (appendEntry q body = (.noSlot, q) ∧ 32 ≤ q.length) := by
    intro body
    rcases appendEntry_cases q body with ⟨hl, he⟩ | ⟨hl, he⟩ <;> rw [he]
    · exact .inl ⟨rfl, by simp, hl⟩
    · exact .inr ⟨rfl, hl⟩
  unfold presentToQueue
  split
  · exact .inr (happ _)
  · rcases writeRequest_cases q a b merge with ⟨q', -, hm, he⟩ | ⟨-, he⟩ <;> rw [he]
    · refine .inl ⟨rfl, mergeInto_length hm, fun hq => ?_⟩
      subst hq; simp [mergeInto] at hm
    · exact .inr (happ _)

/-- A write request with a slot or a merge target is taken as R7, R8, R11 and R12 give. -/
theorem writeRequest_takes {q : List Entry} {a : Addr} {merge : Bool} (b : Byte)
    (h : queueRoom q a merge) :
    ∃ q' merged, writeRequest q a b merge = (if merged then .merged else .appended, q') ∧
      queueTakes q a b merge q' merged := by
  rcases writeRequest_cases q a b merge with ⟨q', hm, hi, he⟩ | ⟨hn, he⟩
  · obtain ⟨older, bytes, younger, hq, hq', -⟩ := mergeInto_spec hi
    have hmb : mergeable q (lineOf a) := (mergeable_iff (offsetOf a) b).2 (by rw [hi]; rfl)
    obtain ⟨o2, bs2, y2, ht⟩ := hmb
    have h2 := mergeInto_target ht (offsetOf a) b
    rw [hi] at h2
    refine ⟨q', true, he, ?_, fun _ => ⟨o2, bs2, cellSet bs2 (offsetOf a) b, y2, ht,
      Option.some.inj h2, fun o => ?_⟩, ?_, overlay_mergeInto_same hi,
      fun a' ha => overlay_mergeInto_other hi ha, by simpa using mergeInto_length hi⟩
    · exact iff_of_true rfl ⟨hm, o2, bs2, y2, ht⟩
    · split
      · next ho => subst ho; exact cellGet_cellSet_same _ _ _
      · next ho => exact cellGet_cellSet_other _ _ ho
    · simp
  · have hnm : ¬ (merge = true ∧ mergeable q (lineOf a)) := by
      rintro ⟨hm, hmb⟩
      have := (mergeable_iff (offsetOf a) b).1 hmb
      rw [hn hm] at this; cases this
    have hl : q.length < 32 := h.resolve_right hnm
    refine ⟨q ++ [⟨.data (lineOf a) [(offsetOf a, b)], .pending⟩], false, ?_, ?_, ?_, fun _ => rfl,
      ?_, fun a' ha => ?_, by simp⟩
    · rw [he]; simp [appendEntry, queueCapacity, hl]
    · simpa using hnm
    · simp
    · simp [overlay_append, Entry.held, cellGet]
    · rw [overlay_append]
      have : (Entry.mk (.data (lineOf a) [(offsetOf a, b)]) .pending).held a' = none := by
        simp only [Entry.held, cellGet]
        split
        · next hl' =>
          split
          · next ho => exact absurd (addr_ext hl'.symm ho.symm) ha
          · rfl
        · rfl
      rw [this, Option.none_or]

/-! ## The head (R15 to R20) -/

/-- A head claim marks the head DRAINING and changes nothing else of the queue (R15, R4). -/
theorem headClaim_spec {q q' : List Entry} {w : DrainWrite} (h : headClaim q = some (w, q')) :
    ∃ e rest, q = e :: rest ∧ q' = { e with state := .draining } :: rest ∧ e.claimed = some w := by
  cases q with
  | nil => simp [headClaim] at h
  | cons e rest =>
    obtain ⟨w', hw, he⟩ := Option.map_eq_some_iff.1 h
    simp only [Prod.mk.injEq] at he
    exact ⟨e, rest, rfl, he.2.symm, he.1 ▸ hw⟩

theorem headClaim_wf {q q' : List Entry} {w : DrainWrite} (h : headClaim q = some (w, q'))
    (hw : queueWf q) : queueWf q' := by
  obtain ⟨e, rest, rfl, rfl, -⟩ := headClaim_spec h
  obtain ⟨h1, h2, h3⟩ := hw
  refine ⟨by simpa using h1, fun x hx => ?_, h3⟩
  rcases List.mem_cons.1 hx with rfl | hx
  · exact wf_of_body (h2 e List.mem_cons_self) rfl
  · exact h2 x (List.mem_cons_of_mem _ hx)

theorem headClaim_length {q q' : List Entry} {w : DrainWrite} (h : headClaim q = some (w, q')) :
    q'.length = q.length := by
  obtain ⟨e, rest, rfl, rfl, -⟩ := headClaim_spec h
  rfl

theorem tail_wf {q : List Entry} (h : queueWf q) : queueWf q.tail := by
  cases q with
  | nil => exact h
  | cons e rest =>
    obtain ⟨h1, h2, h3⟩ := h
    refine ⟨by simp [queueCapacity] at h1 ⊢; omega, fun x hx => h2 x (List.mem_cons_of_mem _ hx),
      fun x hx => h3 x (List.mem_of_mem_tail hx)⟩

/-- What a written report can do: nothing to an empty queue; the head leaves, with its last offset or as
a FENCE entry; or the head keeps its other offsets (R16, R17). -/
theorem writtenReport_cases (q : List Entry) (offset : Nat) :
    (q = [] ∧ writtenReport q offset = (false, [])) ∨
      (q ≠ [] ∧ writtenReport q offset = (true, q.tail)) ∨
      ∃ line bytes st rest, q = ⟨.data line bytes, st⟩ :: rest ∧ cellDrop bytes offset ≠ [] ∧
        writtenReport q offset = (false, ⟨.data line (cellDrop bytes offset), st⟩ :: rest) := by
  cases q with
  | nil => exact .inl ⟨rfl, rfl⟩
  | cons e rest =>
    obtain ⟨body, st⟩ := e
    cases body with
    | fence tag => exact .inr (.inl ⟨by simp, rfl⟩)
    | data line bytes =>
      cases hd : cellDrop bytes offset with
      | nil => exact .inr (.inl ⟨by simp, by simp [writtenReport, hd]⟩)
      | cons c cs =>
        exact .inr (.inr ⟨line, bytes, st, rest, rfl, by simp [hd], by simp [writtenReport, hd]⟩)

theorem writtenReport_wf {q : List Entry} (offset : Nat) (h : queueWf q) :
    queueWf (writtenReport q offset).2 := by
  rcases writtenReport_cases q offset with ⟨rfl, he⟩ | ⟨-, he⟩ | ⟨line, bytes, st, rest, rfl, hne, he⟩ <;>
    rw [he]
  · exact h
  · exact tail_wf h
  · obtain ⟨h1, h2, h3⟩ := h
    refine ⟨by simpa using h1, fun x hx => ?_, h3⟩
    rcases List.mem_cons.1 hx with rfl | hx
    · obtain ⟨g1, -, g3, g4⟩ := (data_wf_iff _ _ _).1 (h2 _ List.mem_cons_self)
      exact ⟨g1, hne, cellDrop_rising _ g3, fun c hc => g4 c (mem_cellDrop.1 hc).1⟩
    · exact h2 x (List.mem_cons_of_mem _ hx)

theorem releaseHead_wf {q : List Entry} (h : queueWf q) : queueWf (releaseHead q) := by
  cases q with
  | nil => exact h
  | cons e rest =>
    obtain ⟨h1, h2, h3⟩ := h
    refine ⟨by simpa [releaseHead] using h1, fun x hx => ?_, h3⟩
    rcases List.mem_cons.1 hx with rfl | hx
    · exact wf_of_body (h2 e List.mem_cons_self) rfl
    · exact h2 x (List.mem_cons_of_mem _ hx)

theorem releaseHead_length (q : List Entry) : (releaseHead q).length = q.length := by
  cases q <;> rfl

theorem releaseHead_eq_nil {q : List Entry} : releaseHead q = [] ↔ q = [] := by
  cases q <;> simp [releaseHead]

/-- A release changes no byte the overlay supplies (R20). -/
theorem overlay_releaseHead (q : List Entry) (a : Addr) :
    overlay (releaseHead q) a = overlay q a := by
  cases q <;> rfl

/-- A head claim changes no byte the overlay supplies (R15). -/
theorem overlay_headClaim {q q' : List Entry} {w : DrainWrite} (h : headClaim q = some (w, q'))
    (a : Addr) : overlay q' a = overlay q a := by
  obtain ⟨e, rest, rfl, rfl, -⟩ := headClaim_spec h
  rfl

end Sys2Proof.Machine
end

