-- ==== Sys2Proof/Laws/State.lean ====
section
/-! SUPPORT. The fields of each named update of the state, so that no later proof unfolds a record
update: what the update writes and, within the block it writes to, what it leaves. The blocks an
update does not touch are in Frames.lean and its companions. -/

namespace Sys2Proof.Machine

open Sys2Proof

@[simp] theorem setCause_status_safety (c : Cause) (s : State) :
    (setCause c s).status.safety = s.status.safety := rfl
@[simp] theorem setCause_status_unmarked (c : Cause) (s : State) :
    (setCause c s).status.unmarked = s.status.unmarked := rfl
@[simp] theorem setCause_status_causes (c : Cause) (s : State) :
    (setCause c s).status.causes = s.status.causes ||| c.bit := rfl
@[simp] theorem setCause_status_fenceLoss (c : Cause) (s : State) :
    (setCause c s).status.fenceLoss = s.status.fenceLoss := rfl
@[simp] theorem setCause_status_fenceUnknown (c : Cause) (s : State) :
    (setCause c s).status.fenceUnknown = s.status.fenceUnknown := rfl
@[simp] theorem setCause_status_lastTag (c : Cause) (s : State) :
    (setCause c s).status.lastTag = s.status.lastTag := rfl
@[simp] theorem setCause_status_deferred (c : Cause) (s : State) :
    (setCause c s).status.deferred = s.status.deferred := rfl
@[simp] theorem setCause_status_merged (c : Cause) (s : State) :
    (setCause c s).status.merged = s.status.merged := rfl
@[simp] theorem setCause_status_rejected (c : Cause) (s : State) :
    (setCause c s).status.rejected = s.status.rejected := rfl
@[simp] theorem setCause_status_discarded (c : Cause) (s : State) :
    (setCause c s).status.discarded = s.status.discarded := rfl
@[simp] theorem setCause_status_episodes (c : Cause) (s : State) :
    (setCause c s).status.episodes = s.status.episodes := rfl
@[simp] theorem setCause_status_dropped (c : Cause) (s : State) :
    (setCause c s).status.dropped = s.status.dropped := rfl
@[simp] theorem setCause_status_snapshot (c : Cause) (s : State) :
    (setCause c s).status.snapshot = s.status.snapshot := rfl
@[simp] theorem setCause_status_snapshotValid (c : Cause) (s : State) :
    (setCause c s).status.snapshotValid = s.status.snapshotValid := rfl

@[simp] theorem takeAck_status_safety (b : Byte) (s : State) :
    (takeAck b s).status.safety = s.status.safety := rfl
@[simp] theorem takeAck_status_unmarked (b : Byte) (s : State) :
    (takeAck b s).status.unmarked = s.status.unmarked := rfl
@[simp] theorem takeAck_status_causes (b : Byte) (s : State) :
    (takeAck b s).status.causes = s.status.causes &&& ~~~b := rfl
@[simp] theorem takeAck_status_fenceLoss (b : Byte) (s : State) :
    (takeAck b s).status.fenceLoss = s.status.fenceLoss := rfl
@[simp] theorem takeAck_status_fenceUnknown (b : Byte) (s : State) :
    (takeAck b s).status.fenceUnknown = s.status.fenceUnknown := rfl
@[simp] theorem takeAck_status_lastTag (b : Byte) (s : State) :
    (takeAck b s).status.lastTag = s.status.lastTag := rfl
@[simp] theorem takeAck_status_deferred (b : Byte) (s : State) :
    (takeAck b s).status.deferred = s.status.deferred := rfl
@[simp] theorem takeAck_status_merged (b : Byte) (s : State) :
    (takeAck b s).status.merged = s.status.merged := rfl
@[simp] theorem takeAck_status_rejected (b : Byte) (s : State) :
    (takeAck b s).status.rejected = s.status.rejected := rfl
@[simp] theorem takeAck_status_discarded (b : Byte) (s : State) :
    (takeAck b s).status.discarded = s.status.discarded := rfl
@[simp] theorem takeAck_status_episodes (b : Byte) (s : State) :
    (takeAck b s).status.episodes = s.status.episodes := rfl
@[simp] theorem takeAck_status_dropped (b : Byte) (s : State) :
    (takeAck b s).status.dropped = s.status.dropped := rfl
@[simp] theorem takeAck_status_snapshot (b : Byte) (s : State) :
    (takeAck b s).status.snapshot = s.status.snapshot := rfl
@[simp] theorem takeAck_status_snapshotValid (b : Byte) (s : State) :
    (takeAck b s).status.snapshotValid = s.status.snapshotValid := rfl

@[simp] theorem countDeferred_status_safety (s : State) :
    (countDeferred s).status.safety = s.status.safety := rfl
@[simp] theorem countDeferred_status_unmarked (s : State) :
    (countDeferred s).status.unmarked = s.status.unmarked := rfl
@[simp] theorem countDeferred_status_causes (s : State) :
    (countDeferred s).status.causes = s.status.causes := rfl
@[simp] theorem countDeferred_status_fenceLoss (s : State) :
    (countDeferred s).status.fenceLoss = s.status.fenceLoss := rfl
@[simp] theorem countDeferred_status_fenceUnknown (s : State) :
    (countDeferred s).status.fenceUnknown = s.status.fenceUnknown := rfl
@[simp] theorem countDeferred_status_lastTag (s : State) :
    (countDeferred s).status.lastTag = s.status.lastTag := rfl
@[simp] theorem countDeferred_status_deferred (s : State) :
    (countDeferred s).status.deferred = s.status.deferred + 1#16 := rfl
@[simp] theorem countDeferred_status_merged (s : State) :
    (countDeferred s).status.merged = s.status.merged := rfl
@[simp] theorem countDeferred_status_rejected (s : State) :
    (countDeferred s).status.rejected = s.status.rejected := rfl
@[simp] theorem countDeferred_status_discarded (s : State) :
    (countDeferred s).status.discarded = s.status.discarded := rfl
@[simp] theorem countDeferred_status_episodes (s : State) :
    (countDeferred s).status.episodes = s.status.episodes := rfl
@[simp] theorem countDeferred_status_dropped (s : State) :
    (countDeferred s).status.dropped = s.status.dropped := rfl
@[simp] theorem countDeferred_status_snapshot (s : State) :
    (countDeferred s).status.snapshot = s.status.snapshot := rfl
@[simp] theorem countDeferred_status_snapshotValid (s : State) :
    (countDeferred s).status.snapshotValid = s.status.snapshotValid := rfl

@[simp] theorem countMerged_status_safety (s : State) :
    (countMerged s).status.safety = s.status.safety := rfl
@[simp] theorem countMerged_status_unmarked (s : State) :
    (countMerged s).status.unmarked = s.status.unmarked := rfl
@[simp] theorem countMerged_status_causes (s : State) :
    (countMerged s).status.causes = s.status.causes := rfl
@[simp] theorem countMerged_status_fenceLoss (s : State) :
    (countMerged s).status.fenceLoss = s.status.fenceLoss := rfl
@[simp] theorem countMerged_status_fenceUnknown (s : State) :
    (countMerged s).status.fenceUnknown = s.status.fenceUnknown := rfl
@[simp] theorem countMerged_status_lastTag (s : State) :
    (countMerged s).status.lastTag = s.status.lastTag := rfl
@[simp] theorem countMerged_status_deferred (s : State) :
    (countMerged s).status.deferred = s.status.deferred := rfl
@[simp] theorem countMerged_status_merged (s : State) :
    (countMerged s).status.merged = s.status.merged + 1#16 := rfl
@[simp] theorem countMerged_status_rejected (s : State) :
    (countMerged s).status.rejected = s.status.rejected := rfl
@[simp] theorem countMerged_status_discarded (s : State) :
    (countMerged s).status.discarded = s.status.discarded := rfl
@[simp] theorem countMerged_status_episodes (s : State) :
    (countMerged s).status.episodes = s.status.episodes := rfl
@[simp] theorem countMerged_status_dropped (s : State) :
    (countMerged s).status.dropped = s.status.dropped := rfl
@[simp] theorem countMerged_status_snapshot (s : State) :
    (countMerged s).status.snapshot = s.status.snapshot := rfl
@[simp] theorem countMerged_status_snapshotValid (s : State) :
    (countMerged s).status.snapshotValid = s.status.snapshotValid := rfl

@[simp] theorem countDiscarded_status_safety (s : State) :
    (countDiscarded s).status.safety = s.status.safety := rfl
@[simp] theorem countDiscarded_status_unmarked (s : State) :
    (countDiscarded s).status.unmarked = s.status.unmarked := rfl
@[simp] theorem countDiscarded_status_causes (s : State) :
    (countDiscarded s).status.causes = s.status.causes := rfl
@[simp] theorem countDiscarded_status_fenceLoss (s : State) :
    (countDiscarded s).status.fenceLoss = s.status.fenceLoss := rfl
@[simp] theorem countDiscarded_status_fenceUnknown (s : State) :
    (countDiscarded s).status.fenceUnknown = s.status.fenceUnknown := rfl
@[simp] theorem countDiscarded_status_lastTag (s : State) :
    (countDiscarded s).status.lastTag = s.status.lastTag := rfl
@[simp] theorem countDiscarded_status_deferred (s : State) :
    (countDiscarded s).status.deferred = s.status.deferred := rfl
@[simp] theorem countDiscarded_status_merged (s : State) :
    (countDiscarded s).status.merged = s.status.merged := rfl
@[simp] theorem countDiscarded_status_rejected (s : State) :
    (countDiscarded s).status.rejected = s.status.rejected := rfl
@[simp] theorem countDiscarded_status_discarded (s : State) :
    (countDiscarded s).status.discarded = saturate s.status.discarded := rfl
@[simp] theorem countDiscarded_status_episodes (s : State) :
    (countDiscarded s).status.episodes = s.status.episodes := rfl
@[simp] theorem countDiscarded_status_dropped (s : State) :
    (countDiscarded s).status.dropped = s.status.dropped := rfl
@[simp] theorem countDiscarded_status_snapshot (s : State) :
    (countDiscarded s).status.snapshot = s.status.snapshot := rfl
@[simp] theorem countDiscarded_status_snapshotValid (s : State) :
    (countDiscarded s).status.snapshotValid = s.status.snapshotValid := rfl

@[simp] theorem countRejected_status_safety (s : State) :
    (countRejected s).status.safety = s.status.safety := rfl
@[simp] theorem countRejected_status_unmarked (s : State) :
    (countRejected s).status.unmarked = s.status.unmarked := rfl
@[simp] theorem countRejected_status_causes (s : State) :
    (countRejected s).status.causes = s.status.causes ||| Cause.writeRejected.bit := rfl
@[simp] theorem countRejected_status_fenceLoss (s : State) :
    (countRejected s).status.fenceLoss = s.status.fenceLoss := rfl
@[simp] theorem countRejected_status_fenceUnknown (s : State) :
    (countRejected s).status.fenceUnknown = s.status.fenceUnknown := rfl
@[simp] theorem countRejected_status_lastTag (s : State) :
    (countRejected s).status.lastTag = s.status.lastTag := rfl
@[simp] theorem countRejected_status_deferred (s : State) :
    (countRejected s).status.deferred = s.status.deferred := rfl
@[simp] theorem countRejected_status_merged (s : State) :
    (countRejected s).status.merged = s.status.merged := rfl
@[simp] theorem countRejected_status_rejected (s : State) :
    (countRejected s).status.rejected = saturate s.status.rejected := rfl
@[simp] theorem countRejected_status_discarded (s : State) :
    (countRejected s).status.discarded = s.status.discarded := rfl
@[simp] theorem countRejected_status_episodes (s : State) :
    (countRejected s).status.episodes = s.status.episodes := rfl
@[simp] theorem countRejected_status_dropped (s : State) :
    (countRejected s).status.dropped = s.status.dropped := rfl
@[simp] theorem countRejected_status_snapshot (s : State) :
    (countRejected s).status.snapshot = s.status.snapshot := rfl
@[simp] theorem countRejected_status_snapshotValid (s : State) :
    (countRejected s).status.snapshotValid = s.status.snapshotValid := rfl

@[simp] theorem countDropped_status_safety (s : State) :
    (countDropped s).status.safety = s.status.safety := rfl
@[simp] theorem countDropped_status_unmarked (s : State) :
    (countDropped s).status.unmarked = s.status.unmarked := rfl
@[simp] theorem countDropped_status_causes (s : State) :
    (countDropped s).status.causes = s.status.causes := rfl
@[simp] theorem countDropped_status_fenceLoss (s : State) :
    (countDropped s).status.fenceLoss = s.status.fenceLoss := rfl
@[simp] theorem countDropped_status_fenceUnknown (s : State) :
    (countDropped s).status.fenceUnknown = s.status.fenceUnknown := rfl
@[simp] theorem countDropped_status_lastTag (s : State) :
    (countDropped s).status.lastTag = s.status.lastTag := rfl
@[simp] theorem countDropped_status_deferred (s : State) :
    (countDropped s).status.deferred = s.status.deferred := rfl
@[simp] theorem countDropped_status_merged (s : State) :
    (countDropped s).status.merged = s.status.merged := rfl
@[simp] theorem countDropped_status_rejected (s : State) :
    (countDropped s).status.rejected = s.status.rejected := rfl
@[simp] theorem countDropped_status_discarded (s : State) :
    (countDropped s).status.discarded = s.status.discarded := rfl
@[simp] theorem countDropped_status_episodes (s : State) :
    (countDropped s).status.episodes = s.status.episodes := rfl
@[simp] theorem countDropped_status_dropped (s : State) :
    (countDropped s).status.dropped = saturate s.status.dropped := rfl
@[simp] theorem countDropped_status_snapshot (s : State) :
    (countDropped s).status.snapshot = s.status.snapshot := rfl
@[simp] theorem countDropped_status_snapshotValid (s : State) :
    (countDropped s).status.snapshotValid = s.status.snapshotValid := rfl

@[simp] theorem countEpisode_status_safety (s : State) :
    (countEpisode s).status.safety = s.status.safety := rfl
@[simp] theorem countEpisode_status_unmarked (s : State) :
    (countEpisode s).status.unmarked = s.status.unmarked := rfl
@[simp] theorem countEpisode_status_causes (s : State) :
    (countEpisode s).status.causes = s.status.causes ||| Cause.holdEntered.bit := rfl
@[simp] theorem countEpisode_status_fenceLoss (s : State) :
    (countEpisode s).status.fenceLoss = s.status.fenceLoss := rfl
@[simp] theorem countEpisode_status_fenceUnknown (s : State) :
    (countEpisode s).status.fenceUnknown = s.status.fenceUnknown := rfl
@[simp] theorem countEpisode_status_lastTag (s : State) :
    (countEpisode s).status.lastTag = s.status.lastTag := rfl
@[simp] theorem countEpisode_status_deferred (s : State) :
    (countEpisode s).status.deferred = s.status.deferred := rfl
@[simp] theorem countEpisode_status_merged (s : State) :
    (countEpisode s).status.merged = s.status.merged := rfl
@[simp] theorem countEpisode_status_rejected (s : State) :
    (countEpisode s).status.rejected = s.status.rejected := rfl
@[simp] theorem countEpisode_status_discarded (s : State) :
    (countEpisode s).status.discarded = s.status.discarded := rfl
@[simp] theorem countEpisode_status_episodes (s : State) :
    (countEpisode s).status.episodes = s.status.episodes + 1#8 := rfl
@[simp] theorem countEpisode_status_dropped (s : State) :
    (countEpisode s).status.dropped = s.status.dropped := rfl
@[simp] theorem countEpisode_status_snapshot (s : State) :
    (countEpisode s).status.snapshot = s.status.snapshot := rfl
@[simp] theorem countEpisode_status_snapshotValid (s : State) :
    (countEpisode s).status.snapshotValid = s.status.snapshotValid := rfl

@[simp] theorem takeSnapshot_status_safety (s : State) :
    (takeSnapshot s).status.safety = s.status.safety := rfl
@[simp] theorem takeSnapshot_status_unmarked (s : State) :
    (takeSnapshot s).status.unmarked = s.status.unmarked := rfl
@[simp] theorem takeSnapshot_status_causes (s : State) :
    (takeSnapshot s).status.causes = s.status.causes := rfl
@[simp] theorem takeSnapshot_status_fenceLoss (s : State) :
    (takeSnapshot s).status.fenceLoss = s.status.fenceLoss := rfl
@[simp] theorem takeSnapshot_status_fenceUnknown (s : State) :
    (takeSnapshot s).status.fenceUnknown = s.status.fenceUnknown := rfl
@[simp] theorem takeSnapshot_status_lastTag (s : State) :
    (takeSnapshot s).status.lastTag = s.status.lastTag := rfl
@[simp] theorem takeSnapshot_status_deferred (s : State) :
    (takeSnapshot s).status.deferred = s.status.deferred := rfl
@[simp] theorem takeSnapshot_status_merged (s : State) :
    (takeSnapshot s).status.merged = s.status.merged := rfl
@[simp] theorem takeSnapshot_status_rejected (s : State) :
    (takeSnapshot s).status.rejected = s.status.rejected := rfl
@[simp] theorem takeSnapshot_status_discarded (s : State) :
    (takeSnapshot s).status.discarded = s.status.discarded := rfl
@[simp] theorem takeSnapshot_status_episodes (s : State) :
    (takeSnapshot s).status.episodes = s.status.episodes := rfl
@[simp] theorem takeSnapshot_status_dropped (s : State) :
    (takeSnapshot s).status.dropped = s.status.dropped := rfl
@[simp] theorem takeSnapshot_status_snapshot (s : State) :
    (takeSnapshot s).status.snapshot = s.shadow := rfl
@[simp] theorem takeSnapshot_status_snapshotValid (s : State) :
    (takeSnapshot s).status.snapshotValid = true := rfl

@[simp] theorem completeFence_status_safety (tag : Byte) (s : State) :
    (completeFence tag s).status.safety = s.status.safety := rfl
@[simp] theorem completeFence_status_unmarked (tag : Byte) (s : State) :
    (completeFence tag s).status.unmarked = s.status.unmarked := rfl
@[simp] theorem completeFence_status_causes (tag : Byte) (s : State) :
    (completeFence tag s).status.causes = s.status.causes := rfl
@[simp] theorem completeFence_status_fenceLoss (tag : Byte) (s : State) :
    (completeFence tag s).status.fenceLoss = s.engine.openLoss := rfl
@[simp] theorem completeFence_status_fenceUnknown (tag : Byte) (s : State) :
    (completeFence tag s).status.fenceUnknown = false := rfl
@[simp] theorem completeFence_status_lastTag (tag : Byte) (s : State) :
    (completeFence tag s).status.lastTag = tag := rfl
@[simp] theorem completeFence_status_deferred (tag : Byte) (s : State) :
    (completeFence tag s).status.deferred = s.status.deferred := rfl
@[simp] theorem completeFence_status_merged (tag : Byte) (s : State) :
    (completeFence tag s).status.merged = s.status.merged := rfl
@[simp] theorem completeFence_status_rejected (tag : Byte) (s : State) :
    (completeFence tag s).status.rejected = s.status.rejected := rfl
@[simp] theorem completeFence_status_discarded (tag : Byte) (s : State) :
    (completeFence tag s).status.discarded = s.status.discarded := rfl
@[simp] theorem completeFence_status_episodes (tag : Byte) (s : State) :
    (completeFence tag s).status.episodes = s.status.episodes := rfl
@[simp] theorem completeFence_status_dropped (tag : Byte) (s : State) :
    (completeFence tag s).status.dropped = s.status.dropped := rfl
@[simp] theorem completeFence_status_snapshot (tag : Byte) (s : State) :
    (completeFence tag s).status.snapshot = s.status.snapshot := rfl
@[simp] theorem completeFence_status_snapshotValid (tag : Byte) (s : State) :
    (completeFence tag s).status.snapshotValid = s.status.snapshotValid := rfl
@[simp] theorem completeFence_engine_state (tag : Byte) (s : State) :
    (completeFence tag s).engine.state = s.engine.state := rfl
@[simp] theorem completeFence_engine_rampLevel (tag : Byte) (s : State) :
    (completeFence tag s).engine.rampLevel = s.engine.rampLevel := rfl
@[simp] theorem completeFence_engine_rampTimer (tag : Byte) (s : State) :
    (completeFence tag s).engine.rampTimer = s.engine.rampTimer := rfl
@[simp] theorem completeFence_engine_gapTimer (tag : Byte) (s : State) :
    (completeFence tag s).engine.gapTimer = s.engine.gapTimer := rfl
@[simp] theorem completeFence_engine_retryTimer (tag : Byte) (s : State) :
    (completeFence tag s).engine.retryTimer = s.engine.retryTimer := rfl
@[simp] theorem completeFence_engine_attempts (tag : Byte) (s : State) :
    (completeFence tag s).engine.attempts = s.engine.attempts := rfl
@[simp] theorem completeFence_engine_awaited (tag : Byte) (s : State) :
    (completeFence tag s).engine.awaited = s.engine.awaited := rfl
@[simp] theorem completeFence_engine_lastClass (tag : Byte) (s : State) :
    (completeFence tag s).engine.lastClass = s.engine.lastClass := rfl
@[simp] theorem completeFence_engine_openLoss (tag : Byte) (s : State) :
    (completeFence tag s).engine.openLoss = false := rfl
@[simp] theorem completeFence_engine_outstanding (tag : Byte) (s : State) :
    (completeFence tag s).engine.outstanding = s.engine.outstanding := rfl

@[simp] theorem determineUnmarked_status_safety (s : State) :
    (determineUnmarked s).status.safety = s.status.safety := rfl
@[simp] theorem determineUnmarked_status_unmarked (s : State) :
    (determineUnmarked s).status.unmarked = recordUnmarked s.writer.record := rfl
@[simp] theorem determineUnmarked_status_causes (s : State) :
    (determineUnmarked s).status.causes = s.status.causes := rfl
@[simp] theorem determineUnmarked_status_fenceLoss (s : State) :
    (determineUnmarked s).status.fenceLoss = s.status.fenceLoss := rfl
@[simp] theorem determineUnmarked_status_fenceUnknown (s : State) :
    (determineUnmarked s).status.fenceUnknown = s.status.fenceUnknown := rfl
@[simp] theorem determineUnmarked_status_lastTag (s : State) :
    (determineUnmarked s).status.lastTag = s.status.lastTag := rfl
@[simp] theorem determineUnmarked_status_deferred (s : State) :
    (determineUnmarked s).status.deferred = s.status.deferred := rfl
@[simp] theorem determineUnmarked_status_merged (s : State) :
    (determineUnmarked s).status.merged = s.status.merged := rfl
@[simp] theorem determineUnmarked_status_rejected (s : State) :
    (determineUnmarked s).status.rejected = s.status.rejected := rfl
@[simp] theorem determineUnmarked_status_discarded (s : State) :
    (determineUnmarked s).status.discarded = s.status.discarded := rfl
@[simp] theorem determineUnmarked_status_episodes (s : State) :
    (determineUnmarked s).status.episodes = s.status.episodes := rfl
@[simp] theorem determineUnmarked_status_dropped (s : State) :
    (determineUnmarked s).status.dropped = s.status.dropped := rfl
@[simp] theorem determineUnmarked_status_snapshot (s : State) :
    (determineUnmarked s).status.snapshot = s.status.snapshot := rfl
@[simp] theorem determineUnmarked_status_snapshotValid (s : State) :
    (determineUnmarked s).status.snapshotValid = s.status.snapshotValid := rfl

@[simp] theorem setSafety_status_safety (f : Safety) (s : State) :
    (setSafety f s).status.safety = f := rfl
@[simp] theorem setSafety_status_unmarked (f : Safety) (s : State) :
    (setSafety f s).status.unmarked = s.status.unmarked := rfl
@[simp] theorem setSafety_status_causes (f : Safety) (s : State) :
    (setSafety f s).status.causes = s.status.causes := rfl
@[simp] theorem setSafety_status_fenceLoss (f : Safety) (s : State) :
    (setSafety f s).status.fenceLoss = s.status.fenceLoss := rfl
@[simp] theorem setSafety_status_fenceUnknown (f : Safety) (s : State) :
    (setSafety f s).status.fenceUnknown = s.status.fenceUnknown := rfl
@[simp] theorem setSafety_status_lastTag (f : Safety) (s : State) :
    (setSafety f s).status.lastTag = s.status.lastTag := rfl
@[simp] theorem setSafety_status_deferred (f : Safety) (s : State) :
    (setSafety f s).status.deferred = s.status.deferred := rfl
@[simp] theorem setSafety_status_merged (f : Safety) (s : State) :
    (setSafety f s).status.merged = s.status.merged := rfl
@[simp] theorem setSafety_status_rejected (f : Safety) (s : State) :
    (setSafety f s).status.rejected = s.status.rejected := rfl
@[simp] theorem setSafety_status_discarded (f : Safety) (s : State) :
    (setSafety f s).status.discarded = s.status.discarded := rfl
@[simp] theorem setSafety_status_episodes (f : Safety) (s : State) :
    (setSafety f s).status.episodes = s.status.episodes := rfl
@[simp] theorem setSafety_status_dropped (f : Safety) (s : State) :
    (setSafety f s).status.dropped = s.status.dropped := rfl
@[simp] theorem setSafety_status_snapshot (f : Safety) (s : State) :
    (setSafety f s).status.snapshot = s.status.snapshot := rfl
@[simp] theorem setSafety_status_snapshotValid (f : Safety) (s : State) :
    (setSafety f s).status.snapshotValid = s.status.snapshotValid := rfl

@[simp] theorem setMode_control_mode (m : Mode) (s : State) :
    (setMode m s).control.mode = m := rfl
@[simp] theorem setMode_control_reason (m : Mode) (s : State) :
    (setMode m s).control.reason = s.control.reason := rfl
@[simp] theorem setMode_control_hreq (m : Mode) (s : State) :
    (setMode m s).control.hreq = s.control.hreq := rfl
@[simp] theorem setMode_control_awaited (m : Mode) (s : State) :
    (setMode m s).control.awaited = s.control.awaited := rfl

@[simp] theorem awaitWrite_control_mode (k : AwaitedKind) (s : State) :
    (awaitWrite k s).control.mode = s.control.mode := rfl
@[simp] theorem awaitWrite_control_reason (k : AwaitedKind) (s : State) :
    (awaitWrite k s).control.reason = s.control.reason := rfl
@[simp] theorem awaitWrite_control_hreq (k : AwaitedKind) (s : State) :
    (awaitWrite k s).control.hreq = s.control.hreq := rfl
@[simp] theorem awaitWrite_control_awaited (k : AwaitedKind) (s : State) :
    (awaitWrite k s).control.awaited = some ⟨k, false⟩ := rfl

@[simp] theorem awaitNone_control_mode (s : State) :
    (awaitNone s).control.mode = s.control.mode := rfl
@[simp] theorem awaitNone_control_reason (s : State) :
    (awaitNone s).control.reason = s.control.reason := rfl
@[simp] theorem awaitNone_control_hreq (s : State) :
    (awaitNone s).control.hreq = s.control.hreq := rfl
@[simp] theorem awaitNone_control_awaited (s : State) :
    (awaitNone s).control.awaited = none := rfl

@[simp] theorem beginEpisode_control_mode (r : HoldReason) (s : State) :
    (beginEpisode r s).control.mode = s.control.mode := rfl
@[simp] theorem beginEpisode_control_reason (r : HoldReason) (s : State) :
    (beginEpisode r s).control.reason = r := rfl
@[simp] theorem beginEpisode_control_hreq (r : HoldReason) (s : State) :
    (beginEpisode r s).control.hreq = s.control.hreq := rfl
@[simp] theorem beginEpisode_control_awaited (r : HoldReason) (s : State) :
    (beginEpisode r s).control.awaited = s.control.awaited := rfl
@[simp] theorem beginEpisode_status_safety (r : HoldReason) (s : State) :
    (beginEpisode r s).status.safety = s.status.safety := rfl
@[simp] theorem beginEpisode_status_unmarked (r : HoldReason) (s : State) :
    (beginEpisode r s).status.unmarked = s.status.unmarked := rfl
@[simp] theorem beginEpisode_status_causes (r : HoldReason) (s : State) :
    (beginEpisode r s).status.causes = s.status.causes ||| Cause.holdEntered.bit := rfl
@[simp] theorem beginEpisode_status_fenceLoss (r : HoldReason) (s : State) :
    (beginEpisode r s).status.fenceLoss = s.status.fenceLoss := rfl
@[simp] theorem beginEpisode_status_fenceUnknown (r : HoldReason) (s : State) :
    (beginEpisode r s).status.fenceUnknown = s.status.fenceUnknown := rfl
@[simp] theorem beginEpisode_status_lastTag (r : HoldReason) (s : State) :
    (beginEpisode r s).status.lastTag = s.status.lastTag := rfl
@[simp] theorem beginEpisode_status_deferred (r : HoldReason) (s : State) :
    (beginEpisode r s).status.deferred = s.status.deferred := rfl
@[simp] theorem beginEpisode_status_merged (r : HoldReason) (s : State) :
    (beginEpisode r s).status.merged = s.status.merged := rfl
@[simp] theorem beginEpisode_status_rejected (r : HoldReason) (s : State) :
    (beginEpisode r s).status.rejected = s.status.rejected := rfl
@[simp] theorem beginEpisode_status_discarded (r : HoldReason) (s : State) :
    (beginEpisode r s).status.discarded = s.status.discarded := rfl
@[simp] theorem beginEpisode_status_episodes (r : HoldReason) (s : State) :
    (beginEpisode r s).status.episodes = s.status.episodes + 1#8 := rfl
@[simp] theorem beginEpisode_status_dropped (r : HoldReason) (s : State) :
    (beginEpisode r s).status.dropped = s.status.dropped := rfl
@[simp] theorem beginEpisode_status_snapshot (r : HoldReason) (s : State) :
    (beginEpisode r s).status.snapshot = s.status.snapshot := rfl
@[simp] theorem beginEpisode_status_snapshotValid (r : HoldReason) (s : State) :
    (beginEpisode r s).status.snapshotValid = s.status.snapshotValid := rfl

@[simp] theorem setPhase_port_access (acc : PortAccess) (p : Phase) (s : State) :
    (setPhase acc p s).port.access = some { acc with phase := p } := rfl
@[simp] theorem setPhase_port_waiting (acc : PortAccess) (p : Phase) (s : State) :
    (setPhase acc p s).port.waiting = s.port.waiting := rfl
@[simp] theorem setPhase_port_marker (acc : PortAccess) (p : Phase) (s : State) :
    (setPhase acc p s).port.marker = s.port.marker := rfl
@[simp] theorem setPhase_port_timeout (acc : PortAccess) (p : Phase) (s : State) :
    (setPhase acc p s).port.timeout = s.port.timeout := rfl

@[simp] theorem setStage_host_access (st : Stage) (s : State) :
    (setStage st s).host.access = s.host.access.map fun a => { a with stage := st } := rfl
@[simp] theorem setStage_host_stallTimer (st : Stage) (s : State) :
    (setStage st s).host.stallTimer = s.host.stallTimer := rfl
@[simp] theorem setStage_host_rstHigh (st : Stage) (s : State) :
    (setStage st s).host.rstHigh = s.host.rstHigh := rfl
@[simp] theorem setStage_host_orphan (st : Stage) (s : State) :
    (setStage st s).host.orphan = s.host.orphan := rfl

@[simp] theorem stopStall_host_access (s : State) :
    (stopStall s).host.access = s.host.access := rfl
@[simp] theorem stopStall_host_stallTimer (s : State) :
    (stopStall s).host.stallTimer = none := rfl
@[simp] theorem stopStall_host_rstHigh (s : State) :
    (stopStall s).host.rstHigh = s.host.rstHigh := rfl
@[simp] theorem stopStall_host_orphan (s : State) :
    (stopStall s).host.orphan = s.host.orphan := rfl

@[simp] theorem portWithdraw_port_access (r : Requester) (s : State) :
    (portWithdraw r s).port.access = s.port.access := rfl
@[simp] theorem portWithdraw_port_waiting (r : Requester) (s : State) :
    (portWithdraw r s).port.waiting = s.port.waiting.put r none := rfl
@[simp] theorem portWithdraw_port_marker (r : Requester) (s : State) :
    (portWithdraw r s).port.marker = s.port.marker := rfl
@[simp] theorem portWithdraw_port_timeout (r : Requester) (s : State) :
    (portWithdraw r s).port.timeout = s.port.timeout := rfl

@[simp] theorem releaseAndStop_engine_state (s : State) :
    (releaseAndStop s).engine.state = .stopped := rfl
@[simp] theorem releaseAndStop_engine_rampLevel (s : State) :
    (releaseAndStop s).engine.rampLevel = s.engine.rampLevel := rfl
@[simp] theorem releaseAndStop_engine_rampTimer (s : State) :
    (releaseAndStop s).engine.rampTimer = none := rfl
@[simp] theorem releaseAndStop_engine_gapTimer (s : State) :
    (releaseAndStop s).engine.gapTimer = none := rfl
@[simp] theorem releaseAndStop_engine_retryTimer (s : State) :
    (releaseAndStop s).engine.retryTimer = none := rfl
@[simp] theorem releaseAndStop_engine_attempts (s : State) :
    (releaseAndStop s).engine.attempts = 0 := rfl
@[simp] theorem releaseAndStop_engine_awaited (s : State) :
    (releaseAndStop s).engine.awaited = .nothing := rfl
@[simp] theorem releaseAndStop_engine_lastClass (s : State) :
    (releaseAndStop s).engine.lastClass = s.engine.lastClass := rfl
@[simp] theorem releaseAndStop_engine_openLoss (s : State) :
    (releaseAndStop s).engine.openLoss = s.engine.openLoss := rfl
@[simp] theorem releaseAndStop_engine_outstanding (s : State) :
    (releaseAndStop s).engine.outstanding = none := rfl

@[simp] theorem rampExpiry_engine_state (s : State) :
    (rampExpiry s).engine.state = s.engine.state := rfl
@[simp] theorem rampExpiry_engine_rampTimer (s : State) :
    (rampExpiry s).engine.rampTimer = some (s.now + rampPeriod s.config.rampSelect) := rfl
@[simp] theorem rampExpiry_engine_gapTimer (s : State) :
    (rampExpiry s).engine.gapTimer = s.engine.gapTimer := rfl
@[simp] theorem rampExpiry_engine_retryTimer (s : State) :
    (rampExpiry s).engine.retryTimer = s.engine.retryTimer := rfl
@[simp] theorem rampExpiry_engine_attempts (s : State) :
    (rampExpiry s).engine.attempts = s.engine.attempts := rfl
@[simp] theorem rampExpiry_engine_awaited (s : State) :
    (rampExpiry s).engine.awaited = s.engine.awaited := rfl
@[simp] theorem rampExpiry_engine_lastClass (s : State) :
    (rampExpiry s).engine.lastClass = s.engine.lastClass := rfl
@[simp] theorem rampExpiry_engine_openLoss (s : State) :
    (rampExpiry s).engine.openLoss = s.engine.openLoss := rfl
@[simp] theorem rampExpiry_engine_outstanding (s : State) :
    (rampExpiry s).engine.outstanding = s.engine.outstanding := rfl

@[simp] theorem aimTimer_monitor_state (s : State) :
    (aimTimer s).monitor.state = s.monitor.state := rfl
@[simp] theorem aimTimer_monitor_warnRun (s : State) :
    (aimTimer s).monitor.warnRun = s.monitor.warnRun := rfl
@[simp] theorem aimTimer_monitor_recoveryRun (s : State) :
    (aimTimer s).monitor.recoveryRun = s.monitor.recoveryRun := rfl
@[simp] theorem aimTimer_monitor_timer (s : State) :
    (aimTimer s).monitor.timer = some ⟨s.now, s.now + samplePeriod s.control.mode⟩ := rfl

@[simp] theorem applyConfig_descriptor_applied (c : Configuration) (g : Byte) (s : State) :
    (applyConfig c g s).descriptor.applied = some c := rfl
@[simp] theorem applyConfig_descriptor_generation (c : Configuration) (g : Byte) (s : State) :
    (applyConfig c g s).descriptor.generation = g := rfl
@[simp] theorem applyConfig_descriptor_reading (c : Configuration) (g : Byte) (s : State) :
    (applyConfig c g s).descriptor.reading = s.descriptor.reading := rfl
@[simp] theorem applyConfig_descriptor_bytes (c : Configuration) (g : Byte) (s : State) :
    (applyConfig c g s).descriptor.bytes = s.descriptor.bytes := rfl
@[simp] theorem applyConfig_descriptor_held (c : Configuration) (g : Byte) (s : State) :
    (applyConfig c g s).descriptor.held = s.descriptor.held := rfl
@[simp] theorem applyConfig_monitor_state (c : Configuration) (g : Byte) (s : State) :
    (applyConfig c g s).monitor.state = s.monitor.state := rfl
@[simp] theorem applyConfig_monitor_warnRun (c : Configuration) (g : Byte) (s : State) :
    (applyConfig c g s).monitor.warnRun = 0 := rfl
@[simp] theorem applyConfig_monitor_recoveryRun (c : Configuration) (g : Byte) (s : State) :
    (applyConfig c g s).monitor.recoveryRun = 0 := rfl
@[simp] theorem applyConfig_monitor_timer (c : Configuration) (g : Byte) (s : State) :
    (applyConfig c g s).monitor.timer = s.monitor.timer := rfl

@[simp] theorem reportBegun_control_mode (s : State) :
    (reportBegun s).control.mode = s.control.mode := rfl
@[simp] theorem reportBegun_control_reason (s : State) :
    (reportBegun s).control.reason = s.control.reason := rfl
@[simp] theorem reportBegun_control_hreq (s : State) :
    (reportBegun s).control.hreq = s.control.hreq := rfl
@[simp] theorem reportBegun_engine_state (s : State) :
    (reportBegun s).engine.state = s.engine.state := rfl
@[simp] theorem reportBegun_engine_rampLevel (s : State) :
    (reportBegun s).engine.rampLevel = s.engine.rampLevel := rfl
@[simp] theorem reportBegun_engine_rampTimer (s : State) :
    (reportBegun s).engine.rampTimer = s.engine.rampTimer := rfl
@[simp] theorem reportBegun_engine_gapTimer (s : State) :
    (reportBegun s).engine.gapTimer = s.engine.gapTimer := rfl
@[simp] theorem reportBegun_engine_retryTimer (s : State) :
    (reportBegun s).engine.retryTimer = s.engine.retryTimer := rfl
@[simp] theorem reportBegun_engine_attempts (s : State) :
    (reportBegun s).engine.attempts = s.engine.attempts := rfl
@[simp] theorem reportBegun_engine_lastClass (s : State) :
    (reportBegun s).engine.lastClass = s.engine.lastClass := rfl
@[simp] theorem reportBegun_engine_openLoss (s : State) :
    (reportBegun s).engine.openLoss = s.engine.openLoss := rfl
@[simp] theorem reportBegun_engine_outstanding (s : State) :
    (reportBegun s).engine.outstanding = s.engine.outstanding := rfl

/-! ## Waiting requests -/

@[simp] theorem put_get_same (w : Waiting) (r : Requester) (o : Option BusOp) :
    (w.put r o).get r = o := by cases r <;> rfl

theorem put_get_other (w : Waiting) {r r' : Requester} (o : Option BusOp) (h : r' ≠ r) :
    (w.put r o).get r' = w.get r' := by cases r <;> cases r' <;> first | rfl | exact absurd rfl h

end Sys2Proof.Machine
end

