-- ==== Sys2Proof/Laws/Operations.lean ====
section
/-! SUPPORT. For each shared operation, once, what it can do: the memory port's requests and decisions,
status-write requests, head claims, presented writes and the beginning of host accesses. -/

namespace Sys2Proof.Machine

open Sys2Proof

/-! ## Grant decisions and requests (R104, R106) -/

/-- The memory after a grant: with MRDY high a write's strobe begins at once, and from then on its byte is
unknown (R110, R114). -/
def grantMemory (s : State) : BusOp → Memory
  | .read _ => s.memory
  | .write a _ => if s.pins.mrdy then memForget s.memory a else s.memory

/-- The phase an access has right after its grant (R109, R110). -/
def grantPhase (s : State) (op : BusOp) : Phase :=
  if s.pins.mrdy then (if op.isRead then .readStrobe false else .writeStrobe false) else .readyWait

/-- A grant, whole (R106). -/
theorem grant_eq (r : Requester) (op : BusOp) (s : State) :
    grant r op s = { s with
      port := ⟨some ⟨r, op, grantPhase s op⟩, s.port.waiting.put r none,
        markerAfter s.port.marker r, some (s.now + 2000)⟩
      memory := grantMemory s op } := by
  cases op <;> cases h : s.pins.mrdy <;>
    simp [grant, h, enterStrobe, grantPhase, grantMemory, BusOp.isRead, writeTimeoutLength]

/-- While an access is in progress a decision grants nothing (R106). -/
theorem decideGrant_busy {s : State} {acc : PortAccess} (h : s.port.access = some acc) :
    decideGrant s = s := by simp [decideGrant, h]

/-- A decision grants nothing, or grants on an IDLE port a waiting request that the mode gate lets through
(R106, R107, R108). -/
theorem decideGrant_cases (s : State) :
    decideGrant s = s ∨
      ∃ r op, s.port.access = none ∧ s.port.waiting.get r = some op ∧
        gateOpen s.control.mode r op = true ∧ decideGrant s = grant r op s := by
  unfold decideGrant
  split
  · next r op ha hc =>
    refine .inr ⟨r, op, ha, ?_⟩
    have key : ∀ r' o, eligible s.control.mode s.port.waiting r' = some o →
        s.port.waiting.get r' = some o ∧ gateOpen s.control.mode r' o = true := by
      intro r' o h
      simpa [eligible, Option.filter_eq_some_iff] using h
    unfold grantChoice at hc
    split at hc
    · next o h => cases hc; exact ⟨(key _ _ h).1, (key _ _ h).2, rfl⟩
    · next o h h' => cases hc; exact ⟨(key _ _ h').1, (key _ _ h').2, rfl⟩
    · next hh d h1 h2 h3 h4 =>
      split at hc <;> cases hc
      · exact ⟨(key _ _ h4).1, (key _ _ h4).2, rfl⟩
      · exact ⟨(key _ _ h3).1, (key _ _ h3).2, rfl⟩
    · next h1 h2 h3 h4 => cases hc; exact ⟨(key _ _ h3).1, (key _ _ h3).2, rfl⟩
    · next h1 h2 h3 h4 => cases hc; exact ⟨(key _ _ h4).1, (key _ _ h4).2, rfl⟩
    · cases hc
  · exact .inl rfl

/-- A decision with nothing waiting grants nothing (R106). -/
theorem decideGrant_nothing {s : State} (h : s.port.waiting = ⟨none, none, none, none⟩) :
    decideGrant s = s := by
  rcases decideGrant_cases s with he | ⟨r, op, -, hw, -, -⟩
  · exact he
  · rw [h] at hw; cases r <;> cases hw

/-- A request that arrives during an access waits (R104). -/
theorem portRequest_busy {s : State} {acc : PortAccess} (r : Requester) (op : BusOp)
    (h : s.port.access = some acc) :
    portRequest r op s =
      { s with port := { s.port with waiting := s.port.waiting.put r (some op) } } := by
  unfold portRequest
  exact decideGrant_busy (acc := acc) h

/-- A request that reaches a quiet port and passes the gate is granted at its arrival (R104). -/
theorem portRequest_quiet {s : State} (r : Requester) (op : BusOp) (h : portQuiet s)
    (hg : gateOpen s.control.mode r op = true) :
    portRequest r op s = { s with
      port := quietGrant s r op (markerAfter s.port.marker r)
      memory := grantMemory s op } := by
  have hc : decideGrant { s with port := { s.port with waiting := s.port.waiting.put r (some op) } } =
      grant r op { s with port := { s.port with waiting := s.port.waiting.put r (some op) } } := by
    cases r <;>
      simp [decideGrant, grantChoice, eligible, h.1, h.2, Waiting.put, Waiting.get, Option.filter, hg]
  unfold portRequest
  rw [hc, grant_eq]
  cases r <;> cases op <;>
    simp [quietGrant, grantPhase, grantMemory, h.2, Waiting.put, BusOp.isRead]

/-- The memory after a grant reads as before but at the address of a write whose strobe began (R114). -/
theorem memRead_grantMemory (s : State) (op : BusOp) (a : Addr)
    (h : op.isRead = true ∨ a ≠ op.addr ∨ s.pins.mrdy = false) :
    memRead (grantMemory s op) a = memRead s.memory a := by
  cases op with
  | read b => rfl
  | write b v =>
    show memRead (if s.pins.mrdy then memForget s.memory b else s.memory) a = memRead s.memory a
    split
    · next hm =>
      rcases h with h | h | h
      · cases h
      · exact memRead_memForget_other _ h
      · rw [hm] at h; cases h
    · rfl

/-! ## Ends of accesses with nothing else waiting (R106) -/

/-- With nothing waiting before or after the completion, the decision at an access's end grants nothing. -/
theorem decideAtEnd_quiet {s : State} (own : Requester)
    (h : s.port.waiting = ⟨none, none, none, none⟩) (before : Waiting) :
    decideAtEnd own before s = s := by
  have hc : eligibleCount s.control.mode s.port.waiting = 0 := by
    rw [h]; rfl
  unfold decideAtEnd
  rw [if_pos (.inr (by omega)), decideGrant_nothing h]

/-- The mode did not change: nothing follows the event (R71, R106). -/
theorem afterEvent_same {s : State} {m : Mode} (h : s.control.mode = m) : afterEvent m s = s := by
  simp [afterEvent, h]

/-! ## Status-write requests (R143) -/

/-- What a request for a status write does: dropped in HOLD, begun with the writer IDLE, left pending with a
write in flight (R143). -/
theorem requestStatusWrite_cases (s : State) :
    (s.control.mode = .hold ∧ requestStatusWrite s = s) ∨
      (s.control.mode ≠ .hold ∧ s.writer.state = .idle ∧
        requestStatusWrite s = beginStatusWrite s) ∨
      (s.control.mode ≠ .hold ∧ (∃ n, s.writer.state = .writing n) ∧
        requestStatusWrite s = { s with writer := { s.writer with pending := true } }) := by
  unfold requestStatusWrite
  cases hm : s.control.mode <;> cases hw : s.writer.state <;> simp

/-- On a quiet port that lets STATUS through, a status write begins with the grant of its byte 0 (R143). -/
theorem beginStatusWrite_quiet {s : State} (h : portQuiet s) (hm : s.control.mode ≠ .hold) :
    beginStatusWrite s = { reportBegun s with
      writer := { s.writer with state := .writing 0#4, image := s.shadow, record := .started }
      port := quietGrant s .status (.write 0xFFF00#20 (s.shadow.byte 0#4)) s.port.marker
      memory := grantMemory s (.write 0xFFF00#20 (s.shadow.byte 0#4)) } := by
  unfold beginStatusWrite
  simp only []
  rw [portRequest_quiet .status _ (by exact h)
    (by cases hc : s.control.mode <;> simp_all [reportBegun, gateOpen])]
  simp [reportBegun, quietGrant, grantMemory, statusByteWrite, statusAddr, statusLine,
    markerAfter, BusOp.isRead]

/-- While an access is in progress a status write begins with its byte 0 waiting (R143). -/
theorem beginStatusWrite_busy {s : State} {acc : PortAccess} (h : s.port.access = some acc) :
    beginStatusWrite s = { reportBegun s with
      writer := { s.writer with state := .writing 0#4, image := s.shadow, record := .started }
      port := { s.port with
        waiting := { s.port.waiting with
          status := some (.write 0xFFF00#20 (s.shadow.byte 0#4)) } } } := by
  unfold beginStatusWrite
  simp only []
  rw [portRequest_busy .status _ (by exact h)]
  simp [reportBegun, statusByteWrite, statusAddr, statusLine, Waiting.put]

/-! ## Head claims (R86, R93) -/

/-- What a head claim does: EMPTY_WAIT on an EMPTY answer, else the head DRAINING and a DRAIN request for
its write (R86). -/
theorem claimHead_cases (s : State) :
    (headClaim s.queue = none ∧ claimHead s =
        { s with engine := { s.engine with state := .emptyWait, outstanding := none } }) ∨
      ∃ w q, headClaim s.queue = some (w, q) ∧ claimHead s =
        portRequest .drain (.write w.addr w.byte)
          { s with
            queue := q
            engine := { s.engine with state := .writing, outstanding := some w } } := by
  unfold claimHead
  split
  · next h => exact .inl ⟨h, rfl⟩
  · next w q h => exact .inr ⟨w, q, h, rfl⟩

/-- A WAIT ends in a head claim, or goes on (R89). -/
theorem endWait_cases (s : State) :
    endWait s = s ∨
      (s.engine.state = .wait ∧ s.engine.gapTimer = none ∧ s.engine.awaited = .nothing ∧
        endWait s = claimHead s) := by
  unfold endWait
  split
  · next h => exact .inr ⟨h.1, h.2.1, h.2.2, rfl⟩
  · exact .inl rfl

/-- Only an engine in EMPTY_WAIT is woken by an append (R93). -/
theorem wakeEngine_cases (s : State) :
    wakeEngine s = s ∨
      (s.engine.state = .emptyWait ∧ s.queue ≠ [] ∧ wakeEngine s = claimHead s) := by
  unfold wakeEngine
  split
  · next h => exact .inr ⟨h.1, h.2, rfl⟩
  · exact .inl rfl

/-! ## Presented writes (R7 to R9, R34) -/

/-- What presenting a write to the queue does: taken as a merge, taken as an append, or NO_SLOT with the
queue full (R7, R8, R9). -/
theorem takeIntoQueue_cases (a : Addr) (b : Byte) (merge : Bool) (s : State) :
    (∃ q, presentToQueue s.queue a b merge = (.merged, q) ∧ takeIntoQueue a b merge s =
        some (acceptQueued a b (countMerged { s with queue := q }))) ∨
      (∃ q, presentToQueue s.queue a b merge = (.appended, q) ∧ takeIntoQueue a b merge s =
        some (appendTaken a b { s with queue := q })) ∨
      (presentToQueue s.queue a b merge = (.noSlot, s.queue) ∧ 32 ≤ s.queue.length ∧
        takeIntoQueue a b merge s = none) := by
  unfold takeIntoQueue
  split
  · next q h => exact .inl ⟨q, h, rfl⟩
  · next q h => exact .inr (.inl ⟨q, h, rfl⟩)
  · next q h =>
    rcases presentToQueue_cases s.queue a b merge with ⟨hc, -⟩ | ⟨hc, -⟩ | ⟨hc, hl⟩
    · rw [h] at hc; cases hc
    · rw [h] at hc; cases hc
    · exact .inr (.inr ⟨hc, hl, rfl⟩)

/-- What follows an append: the wake and the answer, in either order where a DRAIN and a LOAD request meet on
an IDLE port (R104), and the wake first otherwise. -/
theorem appendTaken_cases (a : Addr) (b : Byte) (s : State) :
    (requestsMeet a b s = false ∧ appendTaken a b s = acceptQueued a b (wakeEngine s)) ∨
      (requestsMeet a b s = true ∧
        (appendTaken a b s = acceptQueued a b (wakeEngine s.takeFree) ∨
          appendTaken a b s = wakeEngine (acceptQueued a b s.takeFree))) := by
  unfold appendTaken
  cases h : requestsMeet a b s
  · exact .inl ⟨rfl, by simp⟩
  · refine .inr ⟨rfl, ?_⟩
    cases Config.loadBeforeDrain s.freeIndex <;> simp

/-- Only a generation byte that starts a reload can bring two requests together, and only in EMPTY_WAIT
(R93, R155). -/
theorem requestsMeet_false {a : Addr} {b : Byte} {s : State}
    (h : a ≠ generationAddr ∨ b = s.descriptor.generation ∨ s.descriptor.reading = true ∨
      s.engine.state ≠ .emptyWait) : requestsMeet a b s = false := by
  rcases h with h | h | h | h <;> simp [requestsMeet, h]

/-! ## The ends of status writes (R144) -/

/-- After an end with no pending flag nothing begins (R144). -/
theorem beginPending_none {s : State} (h : s.writer.pending = false) : beginPending s = s := by
  simp [beginPending, h]

/-- The end of a status write that nobody awaits is reported to no effect (R49, R89). -/
theorem reportEnd_unawaited {s : State} (hc : s.control.awaited = none)
    (he : s.engine.awaited = .nothing) : reportEnd s = s := by
  simp [reportEnd, hc, he]

/-! ## What the end of a write leaves in the memory (R111, R114) -/

/-- Away from the address and its neighbours the end of an access leaves the memory (R111, R114). -/
theorem memRead_leaveMemory_other (acc : PortAccess) (c : Completion) (s : State) {a : Addr}
    (h : a ≠ acc.op.addr) (hn : ¬ neighbours acc.op.addr a) :
    memRead (leaveMemory acc c s).memory a = memRead s.memory a := by
  unfold leaveMemory
  split
  · next o b ho => rw [ho] at h; exact memRead_memWrite_other _ _ h
  · next o b ho =>
    rw [ho] at hn
    split
    · rfl
    · exact memRead_memDisturb_other _ _ _ hn
  · rfl

/-- A fault in the ready wait leaves the memory; a later one may make a neighbour unknown and leaves every
other byte (R111). -/
theorem leaveMemory_fault {acc : PortAccess} {a : Addr} {b : Byte} (s : State)
    (h : acc.op = .write a b) :
    faultLeaves s a acc.phase (leaveMemory acc .fault s).memory
      (leaveMemory acc .fault s).freeIndex := by
  unfold leaveMemory
  rw [h]
  dsimp only
  split
  · next hp => exact ⟨fun _ => ⟨rfl, rfl⟩, fun _ _ => rfl, fun _ => .inl rfl⟩
  · next hp =>
    exact ⟨fun h0 => absurd h0 hp, fun _ hn => memRead_memDisturb_other _ _ _ hn,
      fun _ => memRead_memDisturb _ _ _⟩

/-! ## Beginning a host access (R118) -/

/-- An access begins under the beginning condition alone (R118, R129, R131). -/
theorem settleHost_cases (s : State) :
    settleHost s = s ∨
      ∃ op, s.porAsserted = false ∧ s.host.rstHigh = true ∧ s.host.access = none ∧
        busOp s.pins = some op ∧ settleHost s = beginAccess op s := by
  unfold settleHost
  split
  · next op h1 h2 h3 h4 => exact .inr ⟨op, h1, h2, h3, h4, rfl⟩
  · exact .inl rfl

theorem settleHost_busy {s : State} {acc : HostAccess} (h : s.host.access = some acc) :
    settleHost s = s := by
  rcases settleHost_cases s with he | ⟨op, -, -, hn, -⟩
  · exact he
  · rw [h] at hn; cases hn

theorem settleHost_noStrobe {s : State} (h : busOp s.pins = none) : settleHost s = s := by
  rcases settleHost_cases s with he | ⟨op, -, -, -, hb, -⟩
  · exact he
  · rw [h] at hb; cases hb

/-- A read that the host drives onto a ready port begins at once (R118). -/
theorem driveRead_ready {s : State} (a : Addr) (h : hostReady s) :
    driveRead a s = routeRead a { s with
      pins := readPins s.pins a
      host := hostAt s.host (.read a) (.waiting .startUp) } := by
  obtain ⟨h1, h2, h3, -, -, h5⟩ := h
  simp [driveRead, settleHost, h1, h2, h3, busOp, Pins.lowerRead, h5, beginAccess, handOver,
    routeAccess, readPins, hostAt]

/-- A write that the host drives onto a ready port begins at once; an ack byte is handed over first
(R118, R126). -/
theorem driveWrite_ready {s : State} (a : Addr) (b : Byte) (h : hostReady s) :
    driveWrite a b s = decideWrite a b (handOver (.write a b) { s with
      pins := writePins s.pins a b
      host := hostAt s.host (.write a b) (.waiting .startUp) }) := by
  obtain ⟨h1, h2, h3, -, h5, -⟩ := h
  simp only [driveWrite, settleHost, h1, h2, h3, busOp, Pins.lowerWrite, h5, beginAccess]
  simp only [handOver, writePins, hostAt, h2]
  split <;> simp [takeAck, routeAccess, h5]

end Sys2Proof.Machine
end

