-- ==== Sys2Proof/Laws/PerInstr.lean ====
section
/-! SUPPORT. Per command, what its well-formedness gives in the terms of the meanings: a well-formed read
or write of its own row never names an address that has another row. -/

namespace Sys2Proof.Laws

open Sys2Proof Sys2Proof.Machine

/-- The well-formedness of a command, said with the address tests of R32 and R121 and the pin range of
0.4: HOST_READ is outside the status line, STATUS_BYTE_READ is not byte 0, HOST_WRITE is outside the
status line and none of the ack, fence and generation bytes. -/
def WellFormedOperands.Statement (c : Instr) : Prop :=
  c.wf = true →
    match c with
    | .hostRead a => inStatusLine a = false
    | .hostWrite a _ =>
      inStatusLine a = false ∧ a ≠ ackAddr ∧ a ≠ fenceAddr ∧ a ≠ generationAddr
    | .statusByteRead n => statusAddr n ≠ statusBase
    | .sample vsen => vsen ≤ 3600
    | .porRelease _ _ _ vsen => vsen ≤ 3600
    | _ => True

/-- The status line is FFF00H to FFF0FH (R33). -/
theorem inStatusLine_eq_false (a : Addr) :
    inStatusLine a = false ↔ a < 0xFFF00#20 ∨ 0xFFF0F#20 < a := by
  have h : a.toNat < 1048576 := a.isLt
  simp only [inStatusLine, lineOf, statusLine, beq_eq_false_iff_ne, ne_eq, BitVec.lt_def,
    ← BitVec.toNat_inj, BitVec.extractLsb'_toNat, Nat.shiftRight_eq_div_pow, BitVec.toNat_ofNat]
  omega

theorem WellFormedOperands.porAssert : WellFormedOperands.Statement .porAssert := fun _ => trivial

theorem WellFormedOperands.porRelease (hreq rst mrdy : Bool) (vsen : Nat) :
    WellFormedOperands.Statement (.porRelease hreq rst mrdy vsen) := fun h => of_decide_eq_true h

theorem WellFormedOperands.rstFalling : WellFormedOperands.Statement .rstFalling := fun _ => trivial

theorem WellFormedOperands.rstRising : WellFormedOperands.Statement .rstRising := fun _ => trivial

theorem WellFormedOperands.hreqRising : WellFormedOperands.Statement .hreqRising := fun _ => trivial

theorem WellFormedOperands.hreqFalling : WellFormedOperands.Statement .hreqFalling := fun _ => trivial

theorem WellFormedOperands.hostRead (addr : Addr) :
    WellFormedOperands.Statement (.hostRead addr) := by
  intro h
  show inStatusLine addr = false
  rw [inStatusLine_eq_false]
  simpa [Instr.wf] using h

theorem WellFormedOperands.statusByte0Read :
    WellFormedOperands.Statement .statusByte0Read := fun _ => trivial

theorem WellFormedOperands.statusByteRead (offset : Offset) :
    WellFormedOperands.Statement (.statusByteRead offset) := by
  intro h e
  have : ∀ n : Offset, n ≠ 0#4 → statusAddr n ≠ statusBase := by decide
  exact this offset (by simpa [Instr.wf] using h) e

theorem WellFormedOperands.hostWrite (addr : Addr) (byte : Byte) :
    WellFormedOperands.Statement (.hostWrite addr byte) := by
  intro h
  show inStatusLine addr = false ∧ addr ≠ ackAddr ∧ addr ≠ fenceAddr ∧ addr ≠ generationAddr
  rw [inStatusLine_eq_false]
  simpa [Instr.wf, hasOwnWriteRow, ackAddr, fenceAddr, generationAddr, and_assoc] using h

theorem WellFormedOperands.statusLineWrite (offset : Offset) (byte : Byte) :
    WellFormedOperands.Statement (.statusLineWrite offset byte) := fun _ => trivial

theorem WellFormedOperands.ackWrite (byte : Byte) :
    WellFormedOperands.Statement (.ackWrite byte) := fun _ => trivial

theorem WellFormedOperands.fenceWrite (byte : Byte) :
    WellFormedOperands.Statement (.fenceWrite byte) := fun _ => trivial

theorem WellFormedOperands.generationWrite (byte : Byte) :
    WellFormedOperands.Statement (.generationWrite byte) := fun _ => trivial

theorem WellFormedOperands.hostAccessEnd (line : HostLine) :
    WellFormedOperands.Statement (.hostAccessEnd line) := fun _ => trivial

theorem WellFormedOperands.earlyRelease (line : HostLine) :
    WellFormedOperands.Statement (.earlyRelease line) := fun _ => trivial

theorem WellFormedOperands.sample (vsen : Nat) :
    WellFormedOperands.Statement (.sample vsen) := fun h => of_decide_eq_true h

theorem WellFormedOperands.queueEmptyReport :
    WellFormedOperands.Statement .queueEmptyReport := fun _ => trivial

theorem WellFormedOperands.stallExpiry :
    WellFormedOperands.Statement .stallExpiry := fun _ => trivial

theorem WellFormedOperands.gapExpiry : WellFormedOperands.Statement .gapExpiry := fun _ => trivial

theorem WellFormedOperands.retryPauseExpiry :
    WellFormedOperands.Statement .retryPauseExpiry := fun _ => trivial

theorem WellFormedOperands.rampStep : WellFormedOperands.Statement .rampStep := fun _ => trivial

theorem WellFormedOperands.writeStrobeEnd (mrdy : Bool) :
    WellFormedOperands.Statement (.writeStrobeEnd mrdy) := fun _ => trivial

theorem WellFormedOperands.mrdyReady : WellFormedOperands.Statement .mrdyReady := fun _ => trivial

theorem WellFormedOperands.writeTimeout :
    WellFormedOperands.Statement .writeTimeout := fun _ => trivial

theorem WellFormedOperands.readStrobeEnd :
    WellFormedOperands.Statement .readStrobeEnd := fun _ => trivial

end Sys2Proof.Laws
end

