-- ==== Sys2Proof/Tests/Slice0.lean ====
section
/-! SUPPORT. The model's own tests: the checks of WellFormed, single steps with results taken from the
rules and the worked sequences of chapter 11, and for each statement with hypotheses a state and operands
that meet all of them, clause by clause. -/

namespace Sys2Proof.Tests

open Sys2Proof Sys2Proof.Machine

/-! ## WellFormed refuses -/

theorem test_wf_read_of_status_line : Instr.wf (.hostRead 0xFFF00#20) = false := by decide
theorem test_wf_read_of_status_line_end : Instr.wf (.hostRead 0xFFF0F#20) = false := by decide
theorem test_wf_read_after_status_line : Instr.wf (.hostRead 0xFFF10#20) = true := by decide
theorem test_wf_status_byte_0 : Instr.wf (.statusByteRead 0#4) = false := by decide
theorem test_wf_write_of_status_line : Instr.wf (.hostWrite 0xFFF0F#20 1#8) = false := by decide
theorem test_wf_write_of_ack : Instr.wf (.hostWrite 0xFFF10#20 1#8) = false := by decide
theorem test_wf_write_of_fence : Instr.wf (.hostWrite 0xFFF11#20 1#8) = false := by decide
theorem test_wf_write_of_generation : Instr.wf (.hostWrite 0xFFF22#20 1#8) = false := by decide
theorem test_wf_write_of_descriptor : Instr.wf (.hostWrite 0xFFF23#20 1#8) = true := by decide
theorem test_wf_sample_above_range : Instr.wf (.sample 3601) = false := by decide
theorem test_wf_release_above_range :
    Instr.wf (.porRelease false true true 3601) = false := by decide
theorem test_decode_has_no_bits : decodeTableWord 16 0xFFFF = none := by decide

/-! ## States the tests start from -/

/-- NORMAL, the default configuration, the host selected and its strobes high, the port quiet. -/
def base : State :=
  { State.reset with
    porAsserted := false
    pins := { State.reset.pins with hcs := false, vsen := 3300 }
    control := ⟨.normal, .auto, false, none⟩
    monitor := ⟨.good, 0, 0, some ⟨0, 125⟩⟩
    descriptor := ⟨some Configuration.default, 0#8, false, [], none⟩
    sequencer := ⟨.ended, []⟩ }

/-- The same part in a mode, with a queue. -/
def inMode (m : Mode) (q : List Entry) : State :=
  { base with control := ⟨m, .forced, false, none⟩, queue := q }

/-- A configuration with one default policy and merge flag. -/
def policy (p : Policy) (merge : Bool) : Configuration :=
  { Configuration.default with defaultPolicy := p, defaultMerge := merge }

/-- The same part with an applied configuration. -/
def under (c : Configuration) (s : State) : State :=
  { s with descriptor := { s.descriptor with applied := some c } }

/-- The same part with an access in progress at the memory port. -/
def atPort (r : Requester) (op : BusOp) (ph : Phase) (s : State) : State :=
  { s with port := { s.port with access := some ⟨r, op, ph⟩, timeout := some 2000 } }

/-- The same part with a host access in progress. -/
def atHost (op : BusOp) (st : Stage) (s : State) : State :=
  { s with host := { s.host with access := some ⟨op, st, false⟩ } }

/-- The same part with its writer at a byte of a started status write. -/
def writing (n : Offset) (s : State) : State :=
  { s with writer := { s.writer with state := .writing n, record := .started } }

/-- The entry E1 of Table 11-2 after the first write. -/
def e1 : Entry := ⟨.data 0x0210#16 [(5, 0xA1#8)], .pending⟩

/-- A full queue. -/
def full : List Entry := List.replicate 32 ⟨.fence 1#8, .pending⟩

/-- What a field of the next state is; `none` where there is no next state. -/
def after {α : Type} (c : Instr) (s : State) (f : State → α) : Option α :=
  match exec c s with
  | .next t => some (f t)
  | _ => none

/-! ## Single steps -/

/-- Table 11-2: 02106H joins E1. -/
theorem test_merge_adds_offset :
    after (.hostWrite 0x02106#20 0xA2#8) (under (policy .defer true) (inMode .hold [e1]))
      (fun t => (t.queue, t.status.merged)) =
      some ([⟨.data 0x0210#16 [(5, 0xA1#8), (6, 0xA2#8)], .pending⟩], 1#16) := by decide

/-- Table 11-2: a write younger than a fence is appended. -/
theorem test_no_merge_across_fence :
    after (.hostWrite 0x02105#20 0xA3#8)
      (under (policy .defer true) (inMode .hold [e1, ⟨.fence 5#8, .pending⟩]))
      (fun t => t.queue.length) = some 3 := by decide

/-- 11.1: a read of FFF11H returns the held tag. -/
theorem test_read_of_held_fence :
    after (.hostRead 0xFFF11#20) (inMode .hold [e1, ⟨.fence 5#8, .pending⟩])
      State.hostData = some (some 5#8) := by decide

/-- 11.1: a read that misses waits on the memory port, and the mode gate lets it through in HOLD. -/
theorem test_read_miss_uses_port :
    after (.hostRead 0x02107#20) (inMode .hold [e1])
      (fun t => (t.port.access, t.waitPin)) =
      some (some ⟨.host, .read 0x02107#20, .readStrobe false⟩, true) := by decide

/-- Table 9-4: byte 0 in HOLD with safety state CLEAN, forced: mode 3, reason 1. -/
theorem test_status_byte_0 :
    after .statusByte0Read (inMode .hold []) State.hostData = some (some 0x23#8) := by decide

/-- Table 9-4: byte 3 is the occupancy. -/
theorem test_status_byte_3 :
    after (.statusByteRead 3#4) (inMode .hold [e1, e1]) State.hostData = some (some 2#8) := by
  decide

theorem test_status_line_write_is_err :
    after (.statusLineWrite 15#4 0#8) base (fun t => (t.errPin, t.status.rejected)) =
      some (true, 1#8) := by decide

/-- R136: an ack clears the named edge causes alone. -/
theorem test_ack_clears_named :
    after (.ackWrite 0x01#8)
      { inMode .hold [] with status := { base.status with causes := 0x03#8 } }
      (fun t => t.status.causes) = some 0x02#8 := by decide

theorem test_fence_write_appends :
    after (.fenceWrite 7#8) (inMode .entering [e1]) State.queue =
      some [e1, ⟨.fence 7#8, .pending⟩] := by decide

/-- 11.3: a generation byte that differs starts a reload. -/
theorem test_generation_starts_reload :
    after (.generationWrite 2#8) (inMode .hold [])
      (fun t => (t.descriptor.reading, t.port.access)) =
      some (true, some ⟨.load, .read 0xFFF20#20, .readStrobe false⟩) := by decide

theorem test_access_end :
    after (.hostAccessEnd .hoe) (atHost (.read 5#20) (.answered (.data 1#8)) base)
      (fun t => (t.host.access, t.hostData)) = some (none, none) := by decide

theorem test_early_release :
    after (.earlyRelease .hwe) (atHost (.write 5#20 1#8) (.stalled .block) base)
      (fun t => t.host.access) = some (some ⟨.write 5#20 1#8, .stalled .block, true⟩) := by decide

/-- Table 11-4: 2.52 V is LOW, and WARN and TRIP come as a pair; UNMARKED is set by a record of
COMPLETED CLEAN, and no status write begins. -/
theorem test_fast_collapse :
    after (.sample 2520)
      { base with writer := { base.writer with record := .completed .clean } }
      (fun t => (t.control.mode, t.control.reason, t.status.unmarked, t.port.access)) =
      some (.hold, .auto, true, none) := by decide

/-- Table 11-4: 2.77 V is MARGINAL under warning code 4, and a warn filter of 2 does not warn yet. -/
theorem test_marginal_once :
    after (.sample 2770) base (fun t => (t.monitor.state, t.monitor.warnRun)) =
      some (.good, 1) := by decide

/-- Table 11-6: HREQ rising in NORMAL. -/
theorem test_hreq_rising :
    after .hreqRising base
      (fun t => (t.control.mode, t.status.episodes, t.causes, t.heldPin)) =
      some (.entering, 1#8, 0x01#8, true) := by decide

/-- R61: HREQ falling in HOLD with nothing held. -/
theorem test_hreq_falling :
    after .hreqFalling { inMode .hold [] with control := ⟨.hold, .forced, true, none⟩ }
      (fun t => (t.control.mode, t.writer.image.safety)) = some (.closing, .clean) := by decide

theorem test_queue_empty_report :
    after .queueEmptyReport
      { inMode .drain [] with
        queueEmptyReports := 1, engine := { base.engine with state := .wait } }
      (fun t => (t.control.mode, t.engine.state)) = some (.closing, .stopped) := by decide

theorem test_stall_expiry :
    after .stallExpiry
      { atHost (.write 5#20 1#8) (.stalled .block) (inMode .hold []) with
        host := ⟨some ⟨.write 5#20 1#8, .stalled .block, false⟩, some 640, true, false⟩ }
      (fun t => (t.now, t.errPin)) = some (640, true) := by decide

/-- Table 11-3: the claim of E1 offset 5. -/
theorem test_gap_expiry_claims :
    after .gapExpiry
      { inMode .drain [e1] with
        engine := { base.engine with state := .wait, gapTimer := some 56 } }
      (fun t => t.engine.outstanding) = some (some ⟨false, 0x02105#20, 0xA1#8⟩) := by decide

theorem test_retry_claims_again :
    after .retryPauseExpiry
      { inMode .drain [e1] with
        engine := { base.engine with state := .pause, retryTimer := some 1000 } }
      (fun t => (t.engine.state, t.queue)) =
      some (.writing, [⟨.data 0x0210#16 [(5, 0xA1#8)], .draining⟩]) := by decide

/-- Table 11-3: a ramp step at 500 µs. -/
theorem test_ramp_step :
    after .rampStep { inMode .drain [] with engine := { base.engine with rampTimer := some 500 } }
      (fun t => (t.engine.rampLevel, t.engine.rampTimer)) = some (6, some 1000) := by decide

theorem test_write_strobe_end_busy :
    after (.writeStrobeEnd false) (atPort .host (.write 5#20 1#8) (.writeStrobe false) base)
      (fun t => t.port.access) = some (some ⟨.host, .write 5#20 1#8, .busyWatch⟩) := by decide

/-- R111: a strobe that passed the 2 ms bound ends in a fault, MRDY high or low. -/
theorem test_late_strobe_faults :
    [true, false].map (fun mrdy => after (.writeStrobeEnd mrdy)
      (atHost (.write 5#20 1#8) .onPort
        (atPort .host (.write 5#20 1#8) (.writeStrobe true) base))
      (fun t => (t.errPin, t.status.causes))) =
      [some (true, 0x28#8), some (true, 0x28#8)] := by decide

/-- Table 11-3: 100 µs, done; the gap is 56 µs at level 7. -/
theorem test_drain_byte_done :
    after .mrdyReady
      (atPort .drain (.write 0x02105#20 0xA1#8) .busyWatch
        { inMode .drain [⟨.data 0x0210#16 [(5, 0xA1#8), (6, 0xA2#8)], .draining⟩] with
          now := 100
          engine := { base.engine with
            state := .writing, outstanding := some ⟨false, 0x02105#20, 0xA1#8⟩ } })
      (fun t => (t.queue, t.engine.gapTimer, memRead t.memory 0x02105#20)) =
      some ([⟨.data 0x0210#16 [(6, 0xA2#8)], .draining⟩], some 156, some 0xA1#8) := by decide

theorem test_write_timeout_faults :
    after .writeTimeout
      (atHost (.write 5#20 1#8) .onPort (atPort .host (.write 5#20 1#8) .readyWait base))
      (fun t => (t.errPin, t.status.causes)) = some (true, 0x28#8) := by decide

theorem test_read_strobe_end :
    after .readStrobeEnd
      (atHost (.read 5#20) .onPort
        (atPort .host (.read 5#20) (.readStrobe false)
          { base with memory := memWrite base.memory 5#20 0x5A#8 }))
      State.hostData = some (some 0x5A#8) := by decide

/-- R161: the release starts the read of FFF00H. -/
theorem test_por_release :
    after (.porRelease false true true 3300) State.reset (fun t => t.port.access) =
      some (some ⟨.load, .read 0xFFF00#20, .readStrobe false⟩) := by decide

theorem test_por_assert_keeps_memory :
    after .porAssert { base with memory := memWrite base.memory 5#20 0x5A#8 }
      (fun t => memRead t.memory 5#20) = some (some 0x5A#8) := by decide

theorem test_rst_falling :
    after .rstFalling (atHost (.write 5#20 1#8) (.stalled .block) base)
      (fun t => (t.host.access, t.host.rstHigh)) = some (none, false) := by decide

/-- R139: power-on reset marks the snapshot not valid and keeps its bytes. -/
theorem test_por_assert_keeps_snapshot :
    after .porAssert
      { base with status := { base.status with
          snapshot := { base.status.snapshot with lastTag := 0x5A#8 }, snapshotValid := true } }
      (fun t => (t.status.snapshotValid, t.status.snapshot.lastTag)) =
      some (false, 0x5A#8) := by decide

/-- R129: an access begins at the rise if the host holds a strobe. -/
theorem test_rst_rising :
    after .rstRising
      { inMode .hold [e1] with
        host := ⟨none, none, false, false⟩
        pins := { base.pins with hoe := false, ha := 0x02105#20 } }
      State.hostData = some (some 0xA1#8) := by decide

/-- 9.2: the default configuration's warning level is 3.00 V. -/
theorem test_classes :
    [2699, 2700, 2999, 3000].map (classOf 4#3) = [.low, .marginal, .marginal, .good] := by decide

/-! ## Witnesses: states and operands that meet a statement's hypotheses, clause by clause -/

theorem witness_OnlyModeEventsMoveTheMode :
    ∃ t, exec .hreqRising base = .next t ∧ t.control ≠ base.control := ⟨_, rfl, by decide⟩

theorem witness_MemoryStaysCanonical :
    let s := { base with memory := memForget (memWrite base.memory 0xFFFFF#20 1#8) 0#20 }
    s.memory.wf ∧ ∃ t, step s = .next t := ⟨by decide, _, rfl⟩

theorem full_wf : queueWf full := by
  refine ⟨by decide, fun e he => ?_, by decide⟩
  rw [List.eq_of_mem_replicate he]; trivial

theorem witness_QueueStaysWellFormed :
    let s := { atHost (.write 5#20 1#8) (.stalled (.slot true)) (inMode .hold full) with
      pending := [.sample 0] }
    QueueInv s ∧ ∃ t, step s = .next t := ⟨⟨full_wf, rfl⟩, _, rfl⟩

/-- A write in a slot stall meets all three invariants. -/
theorem witness_QueueFollowsMode :
    let s := { atHost (.write 5#20 1#8) (.stalled (.slot true)) (inMode .hold full) with
      pending := [.hreqFalling] }
    QueueInv s ∧ HostPortInv s ∧ OccupancyInv s ∧ ∃ t, step s = .next t := by
  refine ⟨⟨full_wf, rfl⟩, ⟨?_, ?_, ?_⟩, by decide, _, rfl⟩
  · rintro acc h hr; cases h; cases hr
  · rintro op h; cases h
  · rintro op ph h; cases h

/-- A HOST read in progress: a waiting HOST request and a HOST access are the two cases. -/
def hostReading : State :=
  atHost (.read 5#20) .onPort (atPort .host (.read 5#20) (.readStrobe false) base)

theorem witness_ReadIsNeverAnsweredErr :
    let s := { hostReading with pending := [.readStrobeEnd] }
    HostPortInv s ∧ ∃ t, step s = .next t := by
  refine ⟨⟨?_, ?_, ?_⟩, _, rfl⟩
  · rintro acc h -; cases h; exact ⟨by decide, fun k hk => nomatch hk⟩
  · rintro op h; cases h
  · rintro op ph h -; cases h; exact ⟨_, rfl⟩

theorem witness_CountersStayInRange :
    let s := { base with
      pending := [.rampStep]
      engine := { base.engine with rampLevel := 7, attempts := 2, rampTimer := some 500 }
      monitor := ⟨.good, 1, 0, some ⟨0, 125⟩⟩ }
    (∃ t, step s = .next t) ∧ EngineInv s ∧ MonitorInv s := ⟨⟨_, rfl⟩, by decide, by decide⟩

/-- A pass-through write whose host was cut off by RST#, in its busy watch when ENTERING becomes HOLD. -/
def cutOff : State :=
  atPort .host (.write 5#20 1#8) .busyWatch
    { inMode .entering [] with host := ⟨none, none, false, true⟩, pending := [.sample 2699] }

theorem witness_NoWriteStartsInHold :
    ∃ t acc, step cutOff = .next t ∧ t.port.access = some acc ∧ acc.op.isRead = false ∧
      t.control.mode = .hold := ⟨_, _, rfl, rfl, rfl, by decide⟩

theorem witness_NoWriteStartsInHold_entering :
    ∃ t acc, step { cutOff with pending := [] } = .next t ∧ t.port.access = some acc ∧
      acc.op.isRead = false ∧ t.control.mode = .entering ∧ acc.requester ≠ .status :=
  ⟨_, _, rfl, rfl, rfl, by decide, by decide⟩

theorem witness_MemoryChangesOnlyAtItsWrite :
    let s := { atHost (.write 5#20 1#8) .onPort (atPort .host (.write 5#20 1#8) .busyWatch base) with
      pending := [.mrdyReady] }
    ∃ t, step s = .next t ∧ memRead t.memory 5#20 ≠ memRead s.memory 5#20 :=
  ⟨_, rfl, by decide⟩

theorem witness_SaturatingCountsNeverFall :
    (∃ t, exec (.statusLineWrite 15#4 0#8)
      { base with status := { base.status with rejected := 0xFF#8 } } = .next t) ∧
      Instr.statusLineWrite 15#4 0#8 ≠ .porAssert ∧
      ∀ hreq rst mrdy vsen, Instr.statusLineWrite 15#4 0#8 ≠ .porRelease hreq rst mrdy vsen :=
  ⟨⟨_, rfl⟩, by decide, fun _ _ _ _ h => nomatch h⟩

theorem witness_PowerOnReleaseStartsSequencer :
    State.reset.porAsserted = true ∧ State.reset.pins.hcs = true := by decide

theorem witness_RstFallingEndsAccess :
    base.porAsserted = false ∧ (∀ op rel, base.host.access ≠ some ⟨op, .onPort, rel⟩) ∧
      (hostReading.port.waiting.host = none ∧ hostReading.host.orphan = false) ∧
      (let s := { atHost (.read 5#20) .onPort base with
        port := { base.port with waiting := ⟨none, none, some (.read 5#20), none⟩ } }
      s.host.access = some ⟨.read 5#20, .onPort, false⟩ ∧ s.port.waiting.host ≠ none) ∧
      (let s := atHost (.read 5#20) .onPort { base with host := ⟨none, none, true, true⟩ }
      s.host.access = some ⟨.read 5#20, .onPort, false⟩ ∧ s.host.orphan = true) :=
  ⟨by decide, fun _ _ h => (nomatch h), by decide, by decide, by decide⟩

/-- No strobe; a write; a read that a held byte answers, one in STARTUP, and one that misses, with a
cancelled access still running and with a quiet port. -/
theorem witness_RstRisingReopensPort :
    (let s := { base with pins := { base.pins with hwe := false } }
    s.porAsserted = false ∧ s.host.access = none ∧ s.pins.hcs = false ∧ s.pins.hoe = true ∧
      s.pins.hwe = false) ∧
    (∀ orphan ∈ [false, true], ∀ m ∈ [Mode.startup, .normal],
      let s := { inMode m [] with
        pins := { base.pins with hoe := false, ha := 0xFFEFF#20 }
        host := ⟨none, none, false, orphan⟩ }
      s.porAsserted = false ∧ s.host.access = none ∧ s.pins.hcs = false ∧ s.pins.hoe = false ∧
        s.pins.hwe = true ∧ s.control.mode = m ∧ inStatusLine s.pins.ha = false ∧
        overlay s.queue s.pins.ha = none ∧ s.host.orphan = orphan ∧ portQuiet s) ∧
    base.porAsserted = false ∧ base.host.access = none ∧ base.pins.hoe = base.pins.hwe ∧
      State.reset.pins.hcs = true ∧
      (let s := { inMode .hold [e1] with
        pins := { base.pins with hoe := false, ha := 0x02105#20 } }
      s.porAsserted = false ∧ s.host.access = none ∧ s.pins.hcs = false ∧ s.pins.hoe = false ∧
        s.pins.hwe = true ∧ s.control.mode ≠ .startup ∧ inStatusLine s.pins.ha = false ∧
        overlay s.queue s.pins.ha = some 0xA1#8) := by decide

/-- The first address below the status line and the first above it. -/
theorem witness_HostReadRoutes :
    hostReady (inMode .hold [e1]) ∧ inStatusLine 0x02105#20 = false ∧
      overlay (inMode .hold [e1]).queue 0x02105#20 = some 0xA1#8 ∧
      inStatusLine 0xFFEFF#20 = false ∧ inStatusLine 0xFFF10#20 = false ∧
      overlay (inMode .hold [e1]).queue 0xFFF10#20 = none ∧ portQuiet (inMode .hold [e1]) ∧
      (inMode .hold [e1]).control.mode ≠ .startup ∧
      hostReady (inMode .startup []) ∧ (inMode .startup []).control.mode = .startup := by decide

/-- Byte 0; byte 1 with a valid snapshot, byte 15 with none; STARTUP. -/
theorem witness_StatusReadsUseSnapshot :
    (let s := { base with status := { base.status with snapshotValid := true } }
    hostReady s ∧ s.control.mode ≠ .startup ∧ (1#4 : Offset) ≠ 0#4 ∧
      s.status.snapshotValid = true) ∧
    hostReady base ∧ base.control.mode ≠ .startup ∧ (15#4 : Offset) ≠ 0#4 ∧
      base.status.snapshotValid = false ∧ hostReady (inMode .startup []) ∧
      (inMode .startup []).control.mode = .startup := by decide

/-- The last address below the window. -/
theorem witness_RefusedWriteIsAnsweredErr :
    let s := under (policy .readonly false) (inMode .closing [])
    hostReady s ∧ s.control.mode ≠ .startup ∧ s.descriptor.reading = false ∧
      inWindow 0xFFEFF#20 = false ∧ (s.config.lookup (lineOf 0xFFEFF#20)).1 = .readonly := by decide

/-- Lines at either end below the window; window bytes next to the status line, next to the ack byte, and
the last. -/
theorem witness_WritePassesThroughInNormal :
    hostReady base ∧ base.control.mode = .normal ∧ base.descriptor.reading = false ∧
      portQuiet base ∧ inWindow 0xFFEFF#20 = false ∧
      (base.config.lookup (lineOf 0xFFEFF#20)).1 ≠ .readonly ∧ inWindow 0#20 = false ∧
      [0xFFF11#20, 0xFFF12#20, 0xFFF22#20, 0xFFFFF#20].all (fun a =>
        inWindow a && !inStatusLine a && a != 0xFFF10#20) = true := by decide

/-- e1 is a merge target where nothing younger stands in its way (R11). -/
theorem mergeable_e1 (older younger : List Entry)
    (h : ∀ e ∈ younger, (∀ bs, e.body ≠ .data 0x0210#16 bs) ∧ ∀ tag, e.body ≠ .fence tag) :
    mergeable (older ++ e1 :: younger) 0x0210#16 := ⟨older, _, younger, rfl, h⟩

/-- The youngest of 32 entries is a merge target. -/
theorem mergeable_full : mergeable (full.tail ++ [e1]) (lineOf 0x02106#20) := by
  rw [show lineOf 0x02106#20 = 0x0210#16 by decide]
  exact mergeable_e1 _ [] (by simp)

theorem full_length : full.tail.length = 31 := by decide

/-- 31 entries held; a DEFER write that merges into the last of 32, a DISCARD write in DRAIN, and an empty
queue in EMPTY_WAIT. -/
theorem witness_HeldWriteShadowsMemory :
    (let s := under (policy .defer true) (inMode .hold (full.tail ++ [e1]))
    hostReady s ∧ queueingMode s.control.mode = true ∧ s.descriptor.reading = false ∧
      s.engine.state ≠ .emptyWait ∧ inWindow 0x02106#20 = false ∧
      s.config.lookup (lineOf 0x02106#20) = (.defer, true)) ∧
    queueRoom (full.tail ++ [e1]) 0x02106#20 true ∧
    (let s := under (policy .discard false) (inMode .drain full.tail)
    hostReady s ∧ queueingMode s.control.mode = true ∧ s.descriptor.reading = false ∧
      s.engine.state ≠ .emptyWait ∧ inWindow 0xFFEFF#20 = false ∧ inWindow 0#20 = false ∧
      (s.config.lookup (lineOf 0#20)).1 = .discard ∧ s.control.mode = .drain ∧
      s.queue.length = 31) ∧
    (let s := { inMode .drain [] with engine := { base.engine with state := .emptyWait } }
    hostReady s ∧ queueingMode s.control.mode = true ∧ s.descriptor.reading = false ∧
      (s.config.lookup (lineOf 0#20)).1 = .defer ∧ s.engine.state = .emptyWait ∧ s.queue = [] ∧
      s.control.mode = .drain ∧ portQuiet s) :=
  ⟨by decide, .inr ⟨rfl, mergeable_full⟩, by decide, by decide⟩

/-- 31 entries held, and an empty queue in EMPTY_WAIT; the first and the last of the other window bytes. -/
theorem witness_HeldWindowWrites :
    (let s := inMode .entering full.tail
    hostReady s ∧ queueingMode s.control.mode = true ∧ s.descriptor.reading = false ∧
      s.engine.state ≠ .emptyWait ∧ s.queue.length < 32 ∧ 0#8 = s.descriptor.generation) ∧
    queueRoom full.tail 0xFFF10#20 true ∧
    [0xFFF12#20, 0xFFF21#20, 0xFFF23#20, 0xFFFFF#20].all (fun a => inWindow a &&
      !inStatusLine a && a != 0xFFF10#20 && a != 0xFFF11#20 && a != 0xFFF22#20) = true ∧
    (let s := { inMode .drain [] with engine := { base.engine with state := .emptyWait } }
    hostReady s ∧ queueingMode s.control.mode = true ∧ s.descriptor.reading = false ∧
      s.engine.state = .emptyWait ∧ s.queue = [] ∧ s.control.mode = .drain ∧ portQuiet s) :=
  ⟨by decide, .inl (by rw [full_length]; decide), by decide, by decide⟩

/-- The 49 bytes of the default configuration as a descriptor, of generation 1 (Tables 9-2 and 9-3). -/
def validDescriptor : List Byte :=
  [0x6C#8, 0x3A#8, 1#8, 0#8, 4#8, 0x41#8, 64#8, 0xFF#8] ++ List.replicate 40 0#8 ++ [0xD5#8]

theorem test_valid_descriptor :
    descriptorValid validDescriptor = true ∧
      (descriptorConfig validDescriptor).warnFilter = 2 ∧
      (descriptorConfig validDescriptor).recoveryFilter = 4 ∧
      descriptorGeneration validDescriptor = 1#8 := by decide

/-- Entries that hold them all. -/
def heldDescriptor : List Entry :=
  [⟨.data 0xFFF2#16 ((List.range 16).map fun i => (i, validDescriptor.getD i 0#8)), .pending⟩,
    ⟨.data 0xFFF3#16 ((List.range 16).map fun i => (i, 0#8)), .pending⟩,
    ⟨.data 0xFFF4#16 ((List.range 16).map fun i => (i, 0#8)), .pending⟩,
    ⟨.data 0xFFF5#16 [(0, 0xD5#8)], .pending⟩]

/-- No descriptor byte held; all 49 held; EMPTY_WAIT. -/
theorem witness_HeldGenerationWriteStartsReload :
    (let s := inMode .hold full.tail
    hostReady s ∧ queueingMode s.control.mode = true ∧ s.descriptor.reading = false ∧
      s.engine.state ≠ .emptyWait ∧ portQuiet s ∧ 1#8 ≠ s.descriptor.generation ∧
      s.descriptor.held = none ∧ overlay s.queue 0xFFF20#20 = none) ∧
    queueRoom full.tail 0xFFF22#20 true ∧
    (heldDescriptor.length < 32 ∧
      ∀ i ∈ [0, 1, 2, 47, 48], overlay heldDescriptor (0xFFF20#20 + BitVec.ofNat 20 i) =
        some (validDescriptor.getD i 0#8)) ∧
    (let s := { inMode .drain [] with engine := { base.engine with state := .emptyWait } }
    hostReady s ∧ portQuiet s ∧ s.engine.state = .emptyWait ∧ s.queue = [] ∧
      s.control.mode = .drain ∧ 1#8 ≠ s.descriptor.generation) :=
  ⟨by decide, .inl (by rw [full_length]; decide), by decide, by decide⟩

/-- The default stall limit, a limit of 0, and a merge into the youngest of 32; a window byte, and a fence
byte, which never merges. -/
theorem witness_FullQueueStallsWrite :
    (let s := inMode .hold full
    hostReady s ∧ queueingMode s.control.mode = true ∧ s.descriptor.reading = false ∧
      inWindow 0xFFEFF#20 = false ∧ s.config.lookup (lineOf 0xFFEFF#20) = (.defer, false) ∧
      s.queue.length = 32 ∧ s.config.stallLimit ≠ 0#8) ∧
    (let s := under { policy .discard true with stallLimit := 0#8 } (inMode .drain full)
    hostReady s ∧ s.config.lookup (lineOf 0xFFEFF#20) = (.discard, true) ∧
      s.control.mode = .drain ∧ s.queue.length = 32 ∧ s.config.stallLimit = 0#8) ∧
    ¬ mergeable full (lineOf 0xFFEFF#20) ∧
    (let s := under (policy .defer true) (inMode .hold (full.tail ++ [e1]))
    hostReady s ∧ s.config.lookup (lineOf 0x02106#20) = (.defer, true) ∧ s.queue.length = 32) ∧
    mergeable (full.tail ++ [e1]) (lineOf 0x02106#20) ∧
    [0xFFF10#20, 0xFFF11#20, 0xFFF22#20, 0xFFFFF#20].all (fun a =>
      inWindow a && !inStatusLine a) = true := by
  refine ⟨by decide, by decide, ?_, by decide, mergeable_full, by decide⟩
  rintro ⟨older, bytes, younger, h, -⟩
  have hm : (⟨.data (lineOf 0xFFEFF#20) bytes, .pending⟩ : Entry) ∈ full := by rw [h]; simp
  cases List.eq_of_mem_replicate hm

theorem witness_OtherWriteDispositions :
    (hostReady (inMode .startup []) ∧ (inMode .startup []).control.mode = .startup) ∧
    (let s := { base with descriptor := { base.descriptor with reading := true } }
    hostReady s ∧ s.descriptor.reading = true ∧ s.control.mode ≠ .startup) ∧
    (let s := inMode .closing []
    hostReady s ∧ s.descriptor.reading = false ∧ s.control.mode = .closing ∧
      inStatusLine 0xFFF10#20 = false ∧ inWindow 0xFFF10#20 = true ∧
      inStatusLine 0xFFEFF#20 = false ∧ inWindow 0xFFEFF#20 = false ∧
      (s.config.lookup (lineOf 0xFFEFF#20)).1 ≠ .readonly) ∧
    (∀ limit ∈ [0#8, 1#8],
      let s := under { policy .block false with stallLimit := limit } (inMode .drain [])
      hostReady s ∧ s.descriptor.reading = false ∧ queueingMode s.control.mode = true ∧
        (s.config.lookup (lineOf 0xFFEFF#20)).1 = .block ∧ s.config.stallLimit = limit) ∧
    (let s := under (policy .discard false) (inMode .hold [])
    hostReady s ∧ s.descriptor.reading = false ∧ s.control.mode = .hold ∧
      (s.config.lookup (lineOf 0xFFEFF#20)).1 = .discard) := by decide

theorem witness_HostEndsOrReleasesAccess :
    (let s := { atHost (.read 5#20) (.answered (.data 1#8)) base with
      pins := { base.pins with hoe := false } }
    s.host.access = some ⟨.read 5#20, .answered (.data 1#8), false⟩ ∧ s.pins.hwe = true) ∧
    (let s := { atHost (.write 5#20 1#8) (.answered .err) base with
      pins := { base.pins with hwe := false } }
    s.host.access = some ⟨.write 5#20 1#8, .answered .err, false⟩ ∧ s.pins.hoe = true) ∧
    hostReading.host.access = some ⟨.read 5#20, .onPort, false⟩ ∧
    (∀ ans, Stage.onPort ≠ .answered ans) ∧
    (atHost (.write 5#20 1#8) (.stalled .block) base).host.access =
      some ⟨.write 5#20 1#8, .stalled .block, false⟩ ∧
    (∀ ans, Stage.stalled .block ≠ .answered ans) :=
  ⟨by decide, by decide, by decide, fun _ h => (nomatch h), by decide, fun _ h => nomatch h⟩

theorem witness_StallExpiryRejectsWrite :
    (let s := { inMode .hold [] with
      host := ⟨some ⟨.write 5#20 1#8, .stalled (.slot true), false⟩, some 64, true, false⟩ }
    s.host.stallTimer = some 64 ∧
      s.host.access = some ⟨.write 5#20 1#8, .stalled (.slot true), false⟩) ∧
    (let s := { inMode .hold [] with
      host := ⟨some ⟨.write 5#20 1#8, .stalled .block, true⟩, some 64, true, false⟩ }
    s.host.stallTimer = some 64 ∧
      s.host.access = some ⟨.write 5#20 1#8, .stalled .block, true⟩ ∧ s.pins.hoe = true ∧
      s.pins.hwe = true) := by decide

/-- The last byte's done write and the third fault, each with 31 entries behind the head and a fence, a
window write and a generation byte stalled. -/
theorem witness_FreedSlotTakesStalledWrite :
    (∀ rest : List Entry, ∀ a' ∈ [0xFFF11#20, 0xFFF10#20, 0xFFF22#20], ∀ rel ∈ [true, false],
      let s := atPort .drain (.write 0xFFEFE#20 1#8) .busyWatch
        { inMode .drain (⟨.data 0xFFEF#16 [(14, 1#8)], .draining⟩ :: rest) with
          host := ⟨some ⟨.write a' 1#8, .stalled (.slot true), rel⟩, some 64, true, false⟩
          engine := { base.engine with
            state := .writing, rampLevel := 1, attempts := 2
            outstanding := some ⟨false, 0xFFEFE#20, 1#8⟩ } }
      s.host.access = some ⟨.write a' 1#8, .stalled (.slot true), rel⟩ ∧ s.pins.hoe = true ∧
        s.pins.hwe = true ∧ s.descriptor.reading = false ∧
        s.port.access = some ⟨.drain, .write 0xFFEFE#20 1#8, .busyWatch⟩ ∧
        s.port.waiting.drain = none ∧ s.engine.state = .writing ∧ s.engine.rampLevel ≠ 0 ∧
        s.engine.outstanding = some ⟨false, 0xFFEFE#20, 1#8⟩ ∧ s.engine.attempts = 2 ∧
        s.port.timeout ≠ none ∧
        s.queue = ⟨.data 0xFFEF#16 [(offsetOf 0xFFEFE#20, 1#8)], .draining⟩ :: rest ∧
        1#8 ≠ s.descriptor.generation) ∧
    full.tail.length = 31 ∧ overlay full.tail 0xFFF20#20 = none := by
  refine ⟨fun rest a' _ rel _ => ?_, full_length, by decide⟩
  exact ⟨rfl, rfl, rfl, rfl, rfl, rfl, rfl, Nat.one_ne_zero, rfl, rfl, Option.some_ne_none _, rfl,
    fun h => nomatch h⟩

theorem witness_HreqRisingEntersEntering :
    base.porAsserted = false ∧ base.control.mode = .normal ∧ base.writer.state = .idle ∧
      base.engine.awaited = .nothing ∧ base.host.access = none ∧ portQuiet base := by decide

theorem witness_HreqRisingReentersHold :
    (inMode .drain [e1]).porAsserted = false ∧ (inMode .drain [e1]).control.mode = .drain ∧
      (inMode .drain [e1]).host.access = none ∧
      (inMode .closing []).control.mode = .closing := by decide

theorem witness_HreqEdgeOnlyRecorded :
    base.porAsserted = false ∧ (inMode .startup []).control.mode = .startup ∧
      (inMode .entering []).control.mode = .entering ∧ (inMode .hold []).control.mode = .hold ∧
      base.control.mode ≠ .hold ∧
      { inMode .hold [] with monitor := ⟨.warned, 0, 0, none⟩ }.monitor.state = .warned := by decide

theorem witness_HreqFallingLeavesHold :
    ∀ q ∈ [[], [e1]], let s := inMode .hold q
    s.porAsserted = false ∧ s.control.mode = .hold ∧ s.monitor.state = .good ∧
      s.monitor.timer = some ⟨0, 125⟩ ∧ s.writer.state = .idle ∧ s.engine.awaited = .nothing ∧
      s.host.access = none ∧ portQuiet s := by decide

theorem witness_QueueEmptyReportCloses :
    (let s := { inMode .hold [] with queueEmptyReports := 1 }
    s.queueEmptyReports = 0 + 1 ∧ s.control.mode ≠ .drain) ∧
    (let s := { inMode .drain [e1] with queueEmptyReports := 1 }
    s.queueEmptyReports = 0 + 1 ∧ s.queue ≠ []) ∧
    (let s := { inMode .drain [] with
      queueEmptyReports := 1, engine := { base.engine with state := .emptyWait } }
    s.queueEmptyReports = 0 + 1 ∧ s.control.mode = .drain ∧ s.queue = [] ∧
      s.writer.state = .idle ∧ s.engine.state = .emptyWait ∧ s.host.access = none ∧
      portQuiet s) := by decide

/-- The CLOSING wait and the BLOCK stall, the pass-through write not yet granted, and the START_UP wait of
an ack byte, with the recorded HREQ level low and high. -/
theorem witness_ModeChangeMovesHostAccess :
    (∀ st ∈ [Stage.waiting .closing, .stalled .block],
      let s := writing 15#4 (atPort .status (.write 0xFFF0F#20 1#8) .busyWatch
        (atHost (.write 0xFFEFF#20 1#8) st { inMode .closing [] with
          control := ⟨.closing, .forced, false, some ⟨.final, true⟩⟩ }))
      s.porAsserted = false ∧ s.descriptor.reading = false ∧ inStatusLine 0xFFEFF#20 = false ∧
        (s.config.lookup (lineOf 0xFFEFF#20)).1 ≠ .readonly ∧ s.queue = [] ∧
        s.engine.state = .stopped ∧ s.engine.awaited = .nothing ∧ s.monitor.timer ≠ none ∧
        s.host.access = some ⟨.write 0xFFEFF#20 1#8, st, false⟩ ∧ s.control.mode = .closing ∧
        s.control.awaited = some ⟨.final, true⟩ ∧ s.host.orphan = false ∧
        s.port.access = some ⟨.status, .write 0xFFF0F#20 1#8, .busyWatch⟩ ∧
        s.port.waiting = ⟨none, none, none, none⟩ ∧ s.port.timeout ≠ none ∧
        s.writer.state = .writing 15#4 ∧ s.writer.abandoned = false ∧
        s.writer.pending = false) ∧
    (let s := { atPort .load (.read 0xFFF20#20) .readyWait
        (atHost (.write 0xFFF10#20 1#8) .onPort base) with
      port := ⟨some ⟨.load, .read 0xFFF20#20, .readyWait⟩,
        ⟨none, none, some (.write 0xFFF10#20 1#8), none⟩, .host, some 2000⟩ }
    s.porAsserted = false ∧ s.descriptor.reading = false ∧ inStatusLine 0xFFF10#20 = false ∧
      inWindow 0xFFF10#20 = true ∧ s.queue = [] ∧ s.engine.state = .stopped ∧
      s.engine.awaited = .nothing ∧ s.control.mode = .normal ∧
      s.host.access = some ⟨.write 0xFFF10#20 1#8, .onPort, false⟩ ∧
      s.port.waiting.host = some (.write 0xFFF10#20 1#8)) ∧
    (∀ hreq ∈ [true, false],
      let s := writing 15#4 (atPort .status (.write 0xFFF0F#20 1#8) .busyWatch
        (atHost (.write 0xFFF10#20 0xFE#8) (.waiting .startUp) { inMode .startup [] with
          control := ⟨.startup, .auto, hreq, none⟩, sequencer := ⟨.startWrite, []⟩ }))
      s.porAsserted = false ∧ s.descriptor.reading = false ∧ s.queue = [] ∧
        s.engine.state = .stopped ∧ s.engine.awaited = .nothing ∧
        s.host.access = some ⟨.write 0xFFF10#20 0xFE#8, .waiting .startUp, false⟩ ∧
        s.control.mode = .startup ∧ s.sequencer.step = .startWrite ∧ s.control.awaited = none ∧
        s.port.access = some ⟨.status, .write 0xFFF0F#20 1#8, .busyWatch⟩ ∧
        s.port.waiting = ⟨none, none, none, none⟩ ∧ s.host.orphan = false ∧
        s.writer.state = .writing 15#4 ∧ s.writer.abandoned = false ∧
        s.writer.pending = false ∧ s.control.hreq = hreq) :=
  ⟨by decide, by decide, by decide⟩

/-- The three classes at their bounds, 2.70 V and 3.00 V. -/
theorem witness_SampleClassByLevels :
    base.monitor.timer ≠ none ∧
      [2699, 2700, 2999, 3000].map (fun v => after (.sample v) base (fun t => t.engine.lastClass)) =
        [some .low, some .marginal, some .marginal, some .good] := by decide

/-- A state of any mode, and DRAIN with the engine running and not, at a sample of each class. -/
theorem witness_SampleMovesMonitor :
    (base.monitor.timer = some ⟨0, 125⟩ ∧ base.host.access = none) ∧
    (∀ st ∈ [EngineState.emptyWait, .stopped],
      let s := { inMode .drain [] with engine := { base.engine with state := st } }
      s.monitor.timer = some ⟨0, 125⟩ ∧ s.host.access = none ∧ s.control.mode = .drain ∧
        s.engine.state = st) ∧
    [2699, 2700, 3000].map (classOf base.config.warningCode) = [.low, .marginal, .good] := by
  decide

/-- HOLD, ENTERING and another mode, at the highest LOW sample. -/
theorem witness_LowSampleTrips :
    2699 < 2700 ∧ ∀ m ∈ [Mode.hold, .entering, .startup],
      (inMode m []).monitor.timer ≠ none ∧ (inMode m []).control.mode = m := by decide

/-- In each of the three modes, in ENTERING and in DRAIN a sample that moves the monitor and one that does
not, the writer IDLE and not; HOLD at its last recovery sample and one short of it, HREQ low and high, an
entry held and none. -/
theorem witness_SafetyFollowsMonitor :
    (∀ q ∈ [[], [e1]], ∀ run ∈ [2, 3],
      let s := { inMode .hold q with monitor := ⟨.warned, 0, run, some ⟨0, 1000⟩⟩ }
      s.monitor.timer ≠ none ∧ s.control.mode = .hold ∧ s.control.hreq = false ∧
        s.monitor.state = .warned ∧ s.queue = q ∧ s.writer.state = .idle ∧ portQuiet s ∧
        classOf s.config.warningCode 3000 = .good ∧
        (s.config.recoveryFilter ≤ s.monitor.recoveryRun + 1 ↔ run = 3)) ∧
    { inMode .hold [] with control := ⟨.hold, .forced, true, none⟩ }.control.hreq = true ∧
    ∀ m ∈ [Mode.normal, .closing, .startup, .entering, .drain],
    let s := { inMode m [] with monitor := ⟨.good, 1, 0, some ⟨0, 125⟩⟩ }
    s.monitor.timer ≠ none ∧ s.control.mode = m ∧ s.writer.state = .idle ∧
      (writing 15#4 s).writer.state = .writing 15#4 ∧
      after (.sample 2700) s (fun t => t.monitor.state) = some .warned ∧
      after (.sample 3000) s (fun t => t.monitor.state) = some .good := by decide

/-- The gap's end with nothing awaited, the gap's end with a status write awaited, the pause's end; a DATA
head, a FENCE head and no entry; the ramp step. -/
theorem witness_DrainTimersExpire :
    (∀ st ∈ [EngineState.wait, .pause],
      let s := { inMode .drain [] with
        engine := { base.engine with state := st, gapTimer := some 8, retryTimer := some 8 } }
      s.queue = [] ∧ s.engine.state = st ∧ s.engine.gapTimer = some 8 ∧
        s.engine.retryTimer = some 8 ∧ s.engine.awaited = .nothing) ∧
    (let s := { inMode .drain [⟨.data 0xFFEF#16 [(15, 1#8)], .pending⟩] with
      engine := { base.engine with state := .wait, gapTimer := some 8 } }
    s.control.mode = .drain ∧ portQuiet s ∧ s.engine.state = .wait ∧
      s.engine.gapTimer = some 8 ∧ s.engine.awaited = .nothing) ∧
    headWrite ⟨.data 0xFFEF#16 [(15, 1#8)], .pending⟩ ⟨false, 0xFFEFF#20, 1#8⟩ ∧
    (let s := { inMode .drain [⟨.fence 5#8, .draining⟩] with
      engine := { base.engine with state := .wait, gapTimer := some 8, awaited := .begun } }
    s.control.mode = .drain ∧ portQuiet s ∧ s.engine.state = .wait ∧
      s.engine.gapTimer = some 8 ∧ s.engine.awaited ≠ .nothing) ∧
    (let s := { inMode .drain [⟨.fence 5#8, .draining⟩] with
      engine := { base.engine with state := .pause, retryTimer := some 1000 } }
    s.control.mode = .drain ∧ portQuiet s ∧ s.engine.state = .pause ∧
      s.engine.retryTimer = some 1000) ∧
    headWrite ⟨.fence 5#8, .draining⟩ ⟨true, 0xFFF11#20, 5#8⟩ ∧
    { base with engine := { base.engine with rampTimer := some 500 } }.engine.rampTimer =
      some 500 :=
  ⟨by decide, by decide, ⟨15, 1#8, [], rfl, by decide⟩, by decide, by decide, rfl, by decide⟩

/-- The last byte of the last entry, and a byte of more. -/
theorem witness_DrainedByteLeavesHead :
    ∀ more ∈ [[], [(15, 2#8)]],
    let s := atPort .drain (.write 0xFFEFE#20 1#8) .busyWatch
      { inMode .drain [⟨.data 0xFFEF#16 ((14, 1#8) :: more), .draining⟩] with
        engine := { base.engine with
          state := .writing, rampLevel := 1, outstanding := some ⟨false, 0xFFEFE#20, 1#8⟩ } }
    s.port.access = some ⟨.drain, .write 0xFFEFE#20 1#8, .busyWatch⟩ ∧
      s.port.waiting = ⟨none, none, none, none⟩ ∧ s.engine.state = .writing ∧
      s.engine.outstanding = some ⟨false, 0xFFEFE#20, 1#8⟩ ∧ s.engine.rampLevel ≠ 0 ∧
      s.queue = ⟨.data 0xFFEF#16 ((offsetOf 0xFFEFE#20, 1#8) :: more), .draining⟩ :: [] ∧
      (((offsetOf 0xFFEFE#20, 1#8) :: more).map Prod.fst).Pairwise (· < ·) ∧
      s.host.access = none := by decide

theorem witness_DrainedFenceCompletes :
    let s := atPort .drain (.write 0xFFF11#20 0xFF#8) .busyWatch
      { inMode .drain [⟨.fence 0xFF#8, .draining⟩] with
        engine := { base.engine with
          state := .writing, rampLevel := 7, outstanding := some ⟨true, 0xFFF11#20, 0xFF#8⟩ } }
    s.port.access = some ⟨.drain, .write 0xFFF11#20 0xFF#8, .busyWatch⟩ ∧
      s.port.waiting = ⟨none, none, none, none⟩ ∧ s.engine.state = .writing ∧
      s.engine.outstanding = some ⟨true, 0xFFF11#20, 0xFF#8⟩ ∧ s.engine.rampLevel ≠ 0 ∧
      s.control.mode = .drain ∧ s.writer.state = .idle ∧ s.host.access = none ∧
      s.queue = ⟨.fence 0xFF#8, .draining⟩ :: [] := by decide

/-- The second fault, which pauses, and the third, which drops; the two phases. -/
theorem witness_DrainFaultPausesThenDrops :
    ∀ n ∈ [1, 2], ∀ ph ∈ [Phase.readyWait, .busyWatch],
    let s := atPort .drain (.write 0xFFF11#20 5#8) ph
      { inMode .drain [⟨.fence 5#8, .draining⟩] with
        engine := { base.engine with
          state := .writing, attempts := n, outstanding := some ⟨true, 0xFFF11#20, 5#8⟩ } }
    s.port.access = some ⟨.drain, .write 0xFFF11#20 5#8, ph⟩ ∧
      s.port.waiting = ⟨none, none, none, none⟩ ∧ s.port.timeout = some 2000 ∧
      s.engine.state = .writing ∧ s.engine.outstanding = some ⟨true, 0xFFF11#20, 5#8⟩ ∧
      s.host.access = none ∧ s.queue = ⟨.fence 5#8, .draining⟩ :: [] ∧
      (s.engine.attempts < 2 ∨ s.engine.attempts = 2) ∧ s.control.mode = .drain ∧
      s.writer.state = .idle := by decide

/-- The engine's states at the stop; in STOPPING a byte with another behind it, a tag in HOLD and one with
a write in flight. -/
theorem witness_StoppedDrainFinishesItsWrite :
    (∀ st ∈ [EngineState.writing, .emptyWait, .wait, .pause],
      let s := { inMode .drain [⟨.fence 5#8, .draining⟩] with
        engine := { base.engine with state := st } }
      s.host.access = none ∧ s.porAsserted = false ∧ s.control.mode = .drain ∧
        s.port.waiting.drain = none ∧ s.engine.state = st ∧
        s.queue = ⟨.fence 5#8, .draining⟩ :: []) ∧
    ({ inMode .drain [⟨.fence 5#8, .draining⟩] with
      port := { base.port with waiting := ⟨none, none, none, some (.write 0xFFF11#20 5#8)⟩ }
      }.port.waiting.drain ≠ none) ∧
    (let s := atPort .drain (.write 0xFFEFE#20 1#8) .busyWatch
      { inMode .hold [⟨.data 0xFFEF#16 [(14, 1#8), (15, 2#8)], .draining⟩] with
        engine := { base.engine with
          state := .stopping, outstanding := some ⟨false, 0xFFEFE#20, 1#8⟩ } }
    s.host.access = none ∧ s.engine.state = .stopping ∧
      s.port.waiting = ⟨none, none, none, none⟩ ∧ s.port.timeout = some 2000 ∧
      s.port.access = some ⟨.drain, .write 0xFFEFE#20 1#8, .busyWatch⟩ ∧
      s.engine.outstanding = some ⟨false, 0xFFEFE#20, 1#8⟩ ∧
      s.queue = ⟨.data 0xFFEF#16 ((offsetOf 0xFFEFE#20, 1#8) :: [(15, 2#8)]), .draining⟩ :: [] ∧
      ([(offsetOf 0xFFEFE#20, 1#8), (15, 2#8)].map Prod.fst).Pairwise (· < ·)) ∧
    (∀ m ∈ [Mode.hold, .drain],
      let s := writing 15#4 (atPort .drain (.write 0xFFF11#20 5#8) .busyWatch
        { inMode m [⟨.fence 5#8, .draining⟩] with
          engine := { base.engine with
            state := .stopping, outstanding := some ⟨true, 0xFFF11#20, 5#8⟩ } })
      s.host.access = none ∧ s.engine.state = .stopping ∧
        s.port.waiting = ⟨none, none, none, none⟩ ∧
        s.port.access = some ⟨.drain, .write 0xFFF11#20 5#8, .busyWatch⟩ ∧
        s.engine.outstanding = some ⟨true, 0xFFF11#20, 5#8⟩ ∧
        s.queue = ⟨.fence 5#8, .draining⟩ :: [] ∧ s.control.mode = m ∧
        s.writer.state = .writing 15#4) := by decide

/-- A port where each of the four is the one granted, and one where the gate lets nothing through. -/
theorem witness_GrantOrder :
    let h : BusOp := .read 5#20
    let asks (m : Mode) (w : Waiting) (r : Requester) := eligible m w r
    base.port.access = none ∧ base.port.marker = .host ∧
      asks .drain ⟨some h, some h, some h, some h⟩ .status = some h ∧
      (asks .drain ⟨none, some h, some h, some h⟩ .status = none ∧
        asks .drain ⟨none, some h, some h, some h⟩ .load = some h) ∧
      (asks .drain ⟨none, none, some h, none⟩ .host = some h ∧
        asks .drain ⟨none, none, some h, none⟩ .drain = none) ∧
      (asks .drain ⟨none, none, some h, some h⟩ .drain = some h) ∧
      asks .hold ⟨none, none, some (.write 5#20 1#8), none⟩ .host = none := by decide

/-- The two ready waits; a busy watch with its host and one cut off by RST#; a strobe before the bound and
one past it. -/
theorem witness_StrobesBeginAndEndByMrdy :
    (let s := atHost (.write 0xFFF10#20 1#8) .onPort
      (atPort .host (.write 0xFFF10#20 1#8) .busyWatch base)
    s.port.access = some ⟨.host, .write 0xFFF10#20 1#8, .busyWatch⟩ ∧
      s.port.waiting = ⟨none, none, none, none⟩ ∧ s.host.orphan = false ∧
      s.host.access = some ⟨.write 0xFFF10#20 1#8, .onPort, false⟩) ∧
    (let s := atPort .host (.write 0xFFF12#20 1#8) .busyWatch
      { base with host := ⟨none, none, false, true⟩ }
    s.port.access = some ⟨.host, .write 0xFFF12#20 1#8, .busyWatch⟩ ∧
      s.port.waiting = ⟨none, none, none, none⟩ ∧ s.host.orphan = true ∧ s.host.access = none ∧
      (0xFFF12#20 : Addr) ≠ 0xFFF11#20 ∧ (0xFFF12#20 : Addr) ≠ 0xFFF22#20) ∧
    (atPort .load (.read 5#20) .readyWait base).port.access =
        some ⟨.load, .read 5#20, .readyWait⟩ ∧
      (atPort .host (.write 5#20 1#8) .readyWait base).port.access =
        some ⟨.host, .write 5#20 1#8, .readyWait⟩ ∧
      ∀ late ∈ [false, true],
        let s := atHost (.write 0xFFF10#20 1#8) .onPort
          (atPort .host (.write 0xFFF10#20 1#8) (.writeStrobe late) base)
        s.port.access = some ⟨.host, .write 0xFFF10#20 1#8, .writeStrobe late⟩ ∧
          s.port.waiting = ⟨none, none, none, none⟩ ∧ s.host.orphan = false ∧
          s.host.access = some ⟨.write 0xFFF10#20 1#8, .onPort, false⟩ ∧
          (0xFFF10#20 : Addr) ≠ 0xFFF11#20 ∧ (0xFFF10#20 : Addr) ≠ 0xFFF22#20 := by decide

/-- The fence byte and the generation byte, each with its host and cut off by RST#; a generation equal to
the applied one, a different one, and a reading under way. -/
theorem witness_PassedWindowByteTakesEffect :
    (∀ i < 2, ∀ reading ∈ [false, true],
      let a := [0xFFF11#20, 0xFFF22#20].getD i 0#20
      let s := atHost (.write a 5#8) .onPort (atPort .host (.write a 5#8) .busyWatch
        { base with descriptor := { base.descriptor with reading := reading } })
      s.port.access = some ⟨.host, .write a 5#8, .busyWatch⟩ ∧
        s.port.waiting = ⟨none, none, none, none⟩ ∧ s.host.orphan = false ∧
        s.host.access = some ⟨.write a 5#8, .onPort, false⟩ ∧ s.descriptor.generation = 0#8 ∧
        s.descriptor.reading = reading ∧ overlay s.queue 0xFFF20#20 = none) ∧
    (∀ i < 2,
      let a := [0xFFF11#20, 0xFFF22#20].getD i 0#20
      let s := atPort .host (.write a 0#8) .busyWatch { base with host := ⟨none, none, false, true⟩ }
      s.port.access = some ⟨.host, .write a 0#8, .busyWatch⟩ ∧
        s.port.waiting = ⟨none, none, none, none⟩ ∧ s.host.orphan = true ∧
        s.host.access = none ∧ s.descriptor.generation = 0#8) := ⟨by decide, by decide⟩

theorem witness_WriteTimeoutFaults :
    (∀ ph ∈ [Phase.readyWait, .busyWatch],
      let s := atHost (.write 5#20 1#8) .onPort (atPort .host (.write 5#20 1#8) ph base)
      s.port.timeout = some 2000 ∧ s.port.access = some ⟨.host, .write 5#20 1#8, ph⟩ ∧
        s.port.waiting = ⟨none, none, none, none⟩ ∧ s.host.orphan = false ∧
        s.host.access = some ⟨.write 5#20 1#8, .onPort, false⟩) ∧
    (let s := atPort .load (.read 5#20) .readyWait base
    s.port.timeout = some 2000 ∧ s.port.access = some ⟨.load, .read 5#20, .readyWait⟩) ∧
    (let s := atPort .drain (.write 5#20 1#8) (.writeStrobe false) base
    s.port.timeout = some 2000 ∧
      s.port.access = some ⟨.drain, .write 5#20 1#8, .writeStrobe false⟩) := by decide

theorem witness_ReadStrobeAnswersHost :
    hostReading.port.access = some ⟨.host, .read 5#20, .readStrobe false⟩ ∧
      hostReading.port.waiting = ⟨none, none, none, none⟩ ∧ hostReading.host.orphan = false ∧
      hostReading.host.access = some ⟨.read 5#20, .onPort, false⟩ := by decide

/-- The first byte and the last byte that another follows; the last byte, awaited by nobody in NORMAL, with
a write pending and none; the last byte awaited by the drain engine, a gap running and none, an entry held
and none; an abandoned write with no write pending in HOLD and with one in DRAIN. -/
theorem witness_StatusWriteByteEnds :
    (∀ n ∈ [(0#4 : Offset), 14#4],
      let s := writing n (atPort .status (.write (statusAddr n) 1#8) .busyWatch base)
      s.control.mode ≠ .hold ∧
        s.port.access = some ⟨.status, .write (statusAddr n) 1#8, .busyWatch⟩ ∧
        s.port.waiting.status = none ∧ s.writer.state = .writing n ∧ n ≠ 15#4 ∧
        s.writer.abandoned = false) ∧
    (∀ p ∈ [false, true],
      let s := writing 15#4 (atPort .status (.write 0xFFF0F#20 1#8) .busyWatch
        { base with writer := { base.writer with pending := p } })
      s.control.mode = .normal ∧
        s.port.access = some ⟨.status, .write 0xFFF0F#20 1#8, .busyWatch⟩ ∧
        s.port.waiting = ⟨none, none, none, none⟩ ∧ s.control.awaited = none ∧
        s.engine.awaited ≠ .begun ∧ s.writer.state = .writing 15#4 ∧
        s.port.timeout = some 2000 ∧ s.writer.abandoned = false ∧ s.writer.pending = p) ∧
    (∀ gap ∈ [none, some 8], ∀ q ∈ [[], [⟨.fence 5#8, .pending⟩]],
      let s := writing 15#4 (atPort .status (.write 0xFFF0F#20 1#8) .busyWatch
        { inMode .drain q with
          engine := { base.engine with state := .wait, awaited := .begun, gapTimer := gap } })
      s.control.mode = .drain ∧
        s.port.access = some ⟨.status, .write 0xFFF0F#20 1#8, .busyWatch⟩ ∧
        s.port.waiting = ⟨none, none, none, none⟩ ∧ s.control.awaited = none ∧
        s.engine.awaited = .begun ∧ s.engine.state = .wait ∧ s.engine.gapTimer = gap ∧
        s.queue = q ∧ s.writer.state = .writing 15#4 ∧ s.port.timeout = some 2000 ∧
        s.writer.abandoned = false ∧ s.writer.pending = false) ∧
    (∀ x ∈ [(Mode.hold, false), (.drain, true)],
      let s := atPort .status (.write 0xFFF0F#20 1#8) .busyWatch { inMode x.1 [] with
        writer := ⟨.writing 15#4, true, x.2, base.writer.image, .abandoned⟩ }
      s.port.access = some ⟨.status, .write 0xFFF0F#20 1#8, .busyWatch⟩ ∧
        s.port.waiting = ⟨none, none, none, none⟩ ∧ s.writer.state = .writing 15#4 ∧
        s.writer.abandoned = true ∧ s.writer.pending = x.2 ∧ s.port.timeout = some 2000 ∧
        s.control.mode = x.1) :=
  ⟨by decide, by decide, by decide, by decide⟩

/-- The awaited HELD, DRAINING and FINAL writes, each in its mode; the exit condition false and true; a
write pending behind the FINAL write and none. -/
theorem witness_AwaitedWriteEndMovesMode :
    ∀ x ∈ [(AwaitedKind.held, Mode.entering), (.draining, .drain), (.final, .closing)],
    ∀ m ∈ [MonitorState.good, .warned], ∀ p ∈ [false, true],
    ∀ ph ∈ [Phase.readyWait, .busyWatch],
    let s := writing 15#4 (atPort .status (.write 0xFFF0F#20 1#8) ph
      { inMode x.2 [⟨.fence 5#8, .pending⟩] with
        control := ⟨x.2, .forced, false, some ⟨x.1, true⟩⟩
        writer := { base.writer with pending := p }
        monitor := ⟨m, 0, 0, some ⟨0, 125⟩⟩ })
    s.port.access = some ⟨.status, .write 0xFFF0F#20 1#8, ph⟩ ∧
      (BusOp.write 0xFFF0F#20 1#8).isRead = false ∧
      s.port.waiting = ⟨none, none, none, none⟩ ∧ s.port.timeout ≠ none ∧
      s.writer.state = .writing 15#4 ∧ s.writer.abandoned = false ∧ s.writer.pending = p ∧
      s.control.awaited = some ⟨x.1, true⟩ ∧ s.engine.awaited = .nothing ∧
      s.host.access = none ∧ s.control.mode = x.2 ∧ s.control.hreq = false ∧
      s.monitor.state = m ∧ s.engine.state = .stopped ∧
      s.queue = ⟨.fence 5#8, .pending⟩ :: [] := by decide

/-- A blank line (invalid), an all-zero line (CLEAN), and a line that carries AT_RISK. -/
theorem witness_StartUpAssessesLine :
    let s (bs : List Byte) (b : Byte) : State :=
      atPort .load (.read 0xFFF0F#20) (.readStrobe false)
        { inMode .startup [] with
          sequencer := ⟨.statusRead, bs⟩, memory := memWrite base.memory 0xFFF0F#20 b }
    (∀ x ∈ [(List.replicate 15 0xFF#8, 0xFF#8), (List.replicate 15 0#8, 0#8),
        (8#8 :: List.replicate 14 0#8, 0xF8#8)],
      (s x.1 x.2).control.mode = .startup ∧
      (s x.1 x.2).port.access = some ⟨.load, .read 0xFFF0F#20, .readStrobe false⟩ ∧
      (s x.1 x.2).port.waiting = ⟨none, none, none, none⟩ ∧ (s x.1 x.2).queue = [] ∧
      (s x.1 x.2).sequencer.step = .statusRead ∧ (s x.1 x.2).sequencer.bytes.length = 15 ∧
      memRead (s x.1 x.2).memory 0xFFF0F#20 = some x.2) ∧
    (((List.replicate 16 0xFF#8 : List Byte).map BitVec.toNat).sum % 256 ≠ 0) ∧
    (((List.replicate 16 0#8 : List Byte).map BitVec.toNat).sum % 256 = 0) ∧
    (((8#8 :: List.replicate 14 0#8 ++ [0xF8#8] : List Byte).map BitVec.toNat).sum % 256 = 0 ∧
      (8#8 : Byte) &&& 0x18#8 ≠ 0#8) := by decide

/-- The sample at the three classes, after an invalid descriptor. -/
theorem witness_StartLoadEndsWithFirstSample :
    ∀ v ∈ [2699, 2700, 3000],
    let s := atPort .load (.read 0xFFF50#20) (.readStrobe false)
      { inMode .startup [] with
        pins := { base.pins with vsen := v }
        monitor := ⟨.good, 0, 0, none⟩
        sequencer := ⟨.descriptorLoad, List.replicate 16 0xFF#8⟩
        descriptor := ⟨none, 0#8, true, List.replicate 48 0xFF#8, none⟩ }
    s.control.mode = .startup ∧ s.sequencer.step = .descriptorLoad ∧
      s.descriptor.reading = true ∧ s.descriptor.bytes.length = 48 ∧
      s.port.access = some ⟨.load, .read 0xFFF50#20, .readStrobe false⟩ ∧
      s.port.waiting = ⟨none, none, none, none⟩ ∧
      memRead s.memory 0xFFF50#20 = some 0xFF#8 ∧ s.queue = [] ∧ s.monitor.state = .good ∧
      s.writer.state = .idle ∧ s.host.access = none := by decide

/-- A reading at its 48th and its 49th byte, with no held notice, with one equal to the applied generation
and with another; no host access, and a write in a RELOAD wait. -/
theorem witness_ReloadEndsWithConfiguration :
    (∀ held ∈ [none, some 0#8, some 1#8],
      let s := atPort .load (.read 0xFFF50#20) (.readStrobe false)
        { base with descriptor :=
            ⟨some Configuration.default, 0#8, true, List.replicate 48 0xFF#8, held⟩ }
      s.sequencer.step = .ended ∧ s.descriptor.reading = true ∧
        s.port.access = some ⟨.load, .read 0xFFF50#20, .readStrobe false⟩ ∧
        s.port.waiting = ⟨none, none, none, none⟩ ∧
        memRead s.memory 0xFFF50#20 = some 0xFF#8 ∧ s.descriptor.bytes.length = 48 ∧
        s.descriptor.held = held ∧ s.host.access = none ∧
        overlay s.queue 0xFFF20#20 = none) ∧
    (List.replicate 47 0xFF#8).length < 48 ∧
    (descriptorValid (List.replicate 48 0xFF#8 ++ [0xFF#8]) = false ∧
      descriptorValid (validDescriptor.take 48 ++ [0xD5#8]) = true) ∧
    ∀ x ∈ [(Mode.normal, Policy.defer), (.closing, .readonly), (.hold, .discard)],
      let s := atPort .load (.read 0xFFF50#20) (.readStrobe false)
        (atHost (.write 0xFFEFF#20 1#8) (.waiting .reload) { inMode x.1 [] with
          descriptor := ⟨some (policy x.2 false), 0#8, true, List.replicate 48 0xFF#8, none⟩ })
      s.sequencer.step = .ended ∧ s.descriptor.reading = true ∧ s.host.orphan = false ∧
        s.host.access = some ⟨.write 0xFFEFF#20 1#8, .waiting .reload, false⟩ ∧
        s.control.mode = x.1 ∧ s.queue = [] ∧ s.engine.state = .stopped ∧
        overlay s.queue (0xFFF20#20 + BitVec.ofNat 20 s.descriptor.bytes.length) = none ∧
        inStatusLine 0xFFEFF#20 = false ∧ inWindow 0xFFEFF#20 = false ∧
        ((s.descriptor.applied.getD Configuration.default).lookup (lineOf 0xFFEFF#20)).1 =
          x.2 :=
  ⟨fun held _ => ⟨rfl, rfl, rfl, rfl, rfl, rfl, rfl, rfl, rfl⟩, by decide, by decide,
    by decide⟩

theorem witness_StartUpChoosesFirstMode :
    ∀ hreq ∈ [false, true], ∀ p ∈ [false, true], ∀ ph ∈ [Phase.readyWait, .busyWatch],
    let s := writing 15#4 (atPort .status (.write 0xFFF0F#20 1#8) ph
      { inMode .startup [] with
        writer := { base.writer with pending := p }
        control := ⟨.startup, .auto, hreq, none⟩, sequencer := ⟨.startWrite, []⟩ })
    s.control.mode = .startup ∧ s.sequencer.step = .startWrite ∧
      s.port.access = some ⟨.status, .write 0xFFF0F#20 1#8, ph⟩ ∧
      (BusOp.write 0xFFF0F#20 1#8).isRead = false ∧ s.port.waiting = ⟨none, none, none, none⟩ ∧
      s.port.timeout ≠ none ∧ s.writer.state = .writing 15#4 ∧ s.writer.abandoned = false ∧
      s.writer.pending = p ∧ s.control.awaited = none ∧ s.engine.awaited = .nothing ∧
      s.host.access = none ∧ s.control.hreq = hreq := by decide

/-- A line at a row's base and limit, and one past its limit. -/
theorem witness_RegionLookupRule :
    let r : Row := ⟨true, .block, false, 0x1000#16, 0x10FF#16⟩
    r.contains 0x1000#16 = true ∧ r.contains 0x10FF#16 = true ∧ r.contains 0x1100#16 = false ∧
      Row.invalid.contains 0#16 = false := by decide

theorem witness_DescriptorValidityAndConfiguration : (List.replicate 49 0xFF#8 : List Byte).length = 49 := by decide

theorem witness_AlertFollowsMaskedCauses :
    (∃ t, exec .rstFalling base = .next t) ∧ descriptorValid base.descriptor.bytes = false :=
  ⟨⟨_, rfl⟩, by decide⟩

end Sys2Proof.Tests
end

/-! ## POR_ASSERT and the hold queue (R27)

Power-on reset leaves the hold queue empty whatever the access it cut off did to the memory; the rest of
R27 follows from the empty queue, of which the status shadow holds the length and the fence count. -/

namespace Sys2Proof.Machine

open Sys2Proof

/-- POR_ASSERT as the power-on reset of the state whose access it has cut off (R116, R170). -/
theorem exec_porAssert (s : State) : exec .porAssert s = .next (powerOn (cutOffWrite s)) := rfl

@[simp] theorem powerOn_queue (s : State) : (powerOn s).queue = [] := rfl

@[simp] theorem fenceCount_nil : fenceCount [] = 0 := rfl

@[simp] theorem shadow_occupancy (s : State) : s.shadow.occupancy = s.queue.length := rfl

@[simp] theorem shadow_fences (s : State) : s.shadow.fences = fenceCount s.queue := rfl

/-- Status byte 3 is the occupancy (Table 9-4). -/
theorem shadow_byte_three (h : Shadow) : h.byte 3#4 = BitVec.ofNat 8 h.occupancy := rfl

/-- Status byte 4 is the fence count (Table 9-4). -/
theorem shadow_byte_four (h : Shadow) : h.byte 4#4 = BitVec.ofNat 8 h.fences := rfl

/-- While the queue is empty, the shadow's two counts and the status bytes that carry them are 0. -/
theorem shadow_of_queue_empty {s : State} (hq : s.queue = []) :
    s.shadow.occupancy = 0 ∧ s.shadow.fences = 0 ∧
      s.shadow.byte 3#4 = 0#8 ∧ s.shadow.byte 4#4 = 0#8 := by
  have hocc : s.shadow.occupancy = 0 := by simp [hq]
  have hfences : s.shadow.fences = 0 := by simp [hq]
  exact ⟨hocc, hfences, by rw [shadow_byte_three, hocc], by rw [shadow_byte_four, hfences]⟩

/-- Settles O13: the state after the reset has an empty queue, which leaves all 32 slots free and no entry
to be DRAINING, and `shadow_of_queue_empty` reads the counts off it. -/
theorem powerOnResetEmptiesQueue : Obligations.PowerOnResetEmptiesQueue := by
  intro s
  have hq : (powerOn (cutOffWrite s)).queue = [] := powerOn_queue _
  have hfree : queueCapacity - (powerOn (cutOffWrite s)).queue.length = 32 := by
    rw [hq]; rfl
  have hdraining : ∀ e ∈ (powerOn (cutOffWrite s)).queue, e.state ≠ .draining := by
    simp
  exact ⟨_, exec_porAssert s, hq, hfree, hdraining, shadow_of_queue_empty hq⟩

end Sys2Proof.Machine

/-! ## The region lookup (R30)

R30 in lists: the row that decides is the first one, in row order, that contains the line. -/

namespace Sys2Proof.Machine

open Sys2Proof

/-- R30's containment: a valid row whose bounds, both inclusive, hold the line between them. -/
@[simp] theorem Row.contains_iff (r : Row) (line : Line) :
    r.contains line = true ↔ r.valid = true ∧ r.base ≤ line ∧ line ≤ r.limit := by
  simp [Row.contains, and_assoc]

/-- An invalid row is passed over, whatever its bounds (R30). -/
@[simp] theorem Row.invalid_contains (line : Line) : Row.invalid.contains line = false := rfl

/-- The first row that contains the line decides, whatever the rows behind it hold (R30). -/
theorem Configuration.lookup_of_first {c : Configuration} {line : Line} {before after : List Row}
    {r : Row} (hrows : c.rows = before ++ r :: after)
    (hbefore : ∀ x ∈ before, ¬ x.contains line = true) (hr : r.contains line = true) :
    c.lookup line = (r.policy, r.merge) := by
  have hpassed : ∀ x ∈ before, (!x.contains line) = true := by
    simpa only [Bool.not_eq_true', Bool.not_eq_true] using hbefore
  have hfind : c.rows.find? (fun x => x.contains line) = some r :=
    List.find?_eq_some_iff_append.mpr ⟨hr, before, after, hrows, hpassed⟩
  rw [Configuration.lookup, hfind]

/-- Where no row contains the line, the default policy and merge flag are the answer (R30). -/
theorem Configuration.lookup_of_none {c : Configuration} {line : Line}
    (hnone : ∀ x ∈ c.rows, ¬ x.contains line = true) :
    c.lookup line = (c.defaultPolicy, c.defaultMerge) := by
  have hfind : c.rows.find? (fun x => x.contains line) = none := List.find?_eq_none.mpr hnone
  rw [Configuration.lookup, hfind]

/-- Every row of the default configuration is invalid, so none contains a line (R153). -/
theorem Configuration.default_rows_pass_over (line : Line) :
    ∀ x ∈ Configuration.default.rows, ¬ x.contains line = true := by
  intro x hx
  have hinvalid : x = Row.invalid := List.eq_of_mem_replicate hx
  rw [hinvalid, Row.invalid_contains]
  exact Bool.false_ne_true

/-- Settles O56: the search for a containing row ends at the first one, or finds none and leaves the
default, which is all that the default configuration's invalid rows leave. -/
theorem regionLookupRule : Obligations.RegionLookupRule := by
  intro c line
  simp only [← Row.contains_iff]
  refine ⟨?first, ?none, ?default⟩
  case first => exact fun _ _ _ => Configuration.lookup_of_first
  case none => exact Configuration.lookup_of_none
  case default => exact Configuration.lookup_of_none (Configuration.default_rows_pass_over line)

end Sys2Proof.Machine

/-! ## Host reads of the status line (R138, R139)

Every status read is a host read of `statusAddr n`; R138's byte 0 and R139's bytes 1 to 15 without a valid
snapshot are one case of it, the read that takes a snapshot first. -/

namespace Sys2Proof.Machine

open Sys2Proof

/-- The state in which a read begun on a ready port takes its route (R118). -/
def readBegun (a : Addr) (s : State) : State := { s with
  pins := readPins s.pins a
  host := hostAt s.host (.read a) (.waiting .startUp) }

/-- STATUS_BYTE_0_READ as a host read of status byte 0 (R138). -/
theorem exec_statusByte0Read (s : State) :
    exec .statusByte0Read s = .next (driveRead (statusAddr 0#4) s) := rfl

/-- STATUS_BYTE_READ as a host read of its status byte (R139). -/
theorem exec_statusByteRead (n : Offset) (s : State) :
    exec (.statusByteRead n) s = .next (driveRead (statusAddr n) s) := rfl

@[simp] theorem inStatusLine_statusAddr (n : Offset) : inStatusLine (statusAddr n) = true := by
  have hline : lineOf (statusAddr n) = statusLine := BitVec.extractLsb'_append_eq_left
  rw [inStatusLine, hline, beq_self_eq_true]

/-- The offset that a status read takes from its address is the status byte's (R144). -/
@[simp] theorem extractLsb'_statusAddr (n : Offset) : (statusAddr n).extractLsb' 0 4 = n :=
  BitVec.extractLsb'_append_eq_right

/-- Every read waits in STARTUP (R121, R131). -/
theorem routeRead_startup {s : State} (a : Addr) (hm : s.control.mode = .startup) :
    routeRead a s = setStage (.waiting .startUp) s := by
  rw [routeRead, if_pos hm]

/-- Outside STARTUP a read of the status line is answered by the status unit (R121). -/
theorem routeRead_statusAddr {s : State} (n : Offset) (hm : s.control.mode ≠ .startup) :
    routeRead (statusAddr n) s = answerHost (.data (readStatus n s).1) (readStatus n s).2 := by
  rw [routeRead, if_neg hm, if_pos (inStatusLine_statusAddr n), extractLsb'_statusAddr]

/-- Byte 0, or any byte without a valid snapshot, is read from a snapshot taken first (R138, R139). -/
theorem readStatus_fresh {n : Offset} {s : State}
    (h : n = 0#4 ∨ s.status.snapshotValid = false) :
    readStatus n s = (s.shadow.byte n, takeSnapshot s) := by
  rw [readStatus, if_pos h, takeSnapshot_status_snapshot]

/-- Bytes 1 to 15 are read from a valid snapshot, which stays (R139). -/
theorem readStatus_kept {n : Offset} {s : State} (hn : n ≠ 0#4)
    (hv : s.status.snapshotValid = true) :
    readStatus n s = (s.status.snapshot.byte n, s) := by
  have h : ¬ (n = 0#4 ∨ s.status.snapshotValid = false) := by simp [hn, hv]
  rw [readStatus, if_neg h]

/-- A read that the host drives onto a ready port takes its route from `readBegun` (R118). -/
theorem driveRead_eq_routeRead {s : State} (a : Addr) (hr : hostReady s) :
    driveRead a s = routeRead a (readBegun a s) := driveRead_ready a hr

section Reads

variable {s : State} (n : Offset) (hr : hostReady s)

include hr

/-- A status read in STARTUP waits (R121, R131). -/
theorem driveRead_statusAddr_startup (hm : s.control.mode = .startup) :
    driveRead (statusAddr n) s = readBegun (statusAddr n) s := by
  rw [driveRead_eq_routeRead _ hr, routeRead_startup (s := readBegun (statusAddr n) s) _ hm]; rfl

/-- Outside STARTUP a status read is answered at once by the status unit (R121). -/
theorem driveRead_statusAddr (hm : s.control.mode ≠ .startup) :
    driveRead (statusAddr n) s =
      answerHost (.data (readStatus n (readBegun (statusAddr n) s)).1)
        (readStatus n (readBegun (statusAddr n) s)).2 := by
  rw [driveRead_eq_routeRead _ hr, routeRead_statusAddr (s := readBegun (statusAddr n) s) n hm]

/-- A status read that takes a snapshot first: the latch and the host's answer change (R138, R139). -/
theorem driveRead_statusAddr_fresh (hm : s.control.mode ≠ .startup)
    (h : n = 0#4 ∨ s.status.snapshotValid = false) :
    driveRead (statusAddr n) s = { s with
      pins := readPins s.pins (statusAddr n)
      host := hostAt s.host (.read (statusAddr n)) (.answered (.data (s.shadow.byte n)))
      status := { s.status with snapshot := s.shadow, snapshotValid := true } } := by
  rw [driveRead_statusAddr n hr hm, readStatus_fresh (s := readBegun (statusAddr n) s) h]; rfl

/-- A status read from a valid snapshot: only the host's answer changes (R139). -/
theorem driveRead_statusAddr_kept (hm : s.control.mode ≠ .startup) (hn : n ≠ 0#4)
    (hv : s.status.snapshotValid = true) :
    driveRead (statusAddr n) s = { s with
      pins := readPins s.pins (statusAddr n)
      host := hostAt s.host (.read (statusAddr n))
        (.answered (.data (s.status.snapshot.byte n))) } := by
  rw [driveRead_statusAddr n hr hm, readStatus_kept (s := readBegun (statusAddr n) s) hn hv]; rfl

end Reads

/-! ### The check byte (R132) -/

theorem toNat_foldl_add (bs : List Byte) (b : Byte) :
    (bs.foldl (· + ·) b).toNat = (b.toNat + (bs.map BitVec.toNat).sum) % 256 := by
  induction bs generalizing b with
  | nil => simp [Nat.mod_eq_of_lt b.isLt]
  | cons c cs ih => simp [ih, BitVec.toNat_add, Nat.add_assoc]

/-- The 8-bit sum of R151 and R162 is the sum of the bytes modulo 256. -/
theorem toNat_byteSum (bs : List Byte) :
    (byteSum bs).toNat = (bs.map BitVec.toNat).sum % 256 := by
  simp [byteSum, toNat_foldl_add]

/-- A byte joined at the end is added to the 8-bit sum. -/
theorem byteSum_concat (bs : List Byte) (b : Byte) : byteSum (bs ++ [b]) = byteSum bs + b := by
  simp [byteSum]

/-- The check byte makes a copy's 8-bit sum 00H (R132). -/
theorem byteSum_shadow_bytes (h : Shadow) : byteSum h.bytes = 0#8 := by
  rw [Shadow.bytes, byteSum_concat, ← BitVec.sub_eq_add_neg, BitVec.sub_self]

theorem shadow_bytes_length (h : Shadow) : h.bytes.length = 16 := rfl

/-- Settles O19: each of the two commands is a read of `statusAddr n`, which waits, takes a snapshot first or
reads the one it finds; the check byte gives the sum. -/
theorem statusReadsUseSnapshot : Obligations.StatusReadsUseSnapshot := by
  intro s hr
  refine ⟨?byte0, ?byte0Startup, shadow_bytes_length _, ?sum, fun n hn => ⟨?startup, ?kept, ?fresh⟩⟩
  case byte0 =>
    intro hm
    rw [exec_statusByte0Read, driveRead_statusAddr_fresh 0#4 hr hm (.inl rfl)]; rfl
  case byte0Startup =>
    intro hm
    rw [exec_statusByte0Read, driveRead_statusAddr_startup 0#4 hr hm]; rfl
  case sum => rw [← toNat_byteSum, byteSum_shadow_bytes]; rfl
  case startup =>
    intro hm
    rw [exec_statusByteRead, driveRead_statusAddr_startup n hr hm]; rfl
  case kept =>
    intro hm hv
    rw [exec_statusByteRead, driveRead_statusAddr_kept n hr hm hn hv]; rfl
  case fresh =>
    intro hm hv
    rw [exec_statusByteRead, driveRead_statusAddr_fresh n hr hm (.inr hv)]; rfl

end Sys2Proof.Machine

/-! ## The causes and ALERT (R134 to R137)

ALERT is a function of the applied configuration and the causes field, so a command that changes neither
leaves it. -/

namespace Sys2Proof.Machine

open Sys2Proof

/-- A word is not 0 exactly when one of its bits is set. -/
theorem bitVec_ne_zero_iff {w : Nat} (x : BitVec w) :
    x ≠ 0#w ↔ ∃ k, k < w ∧ x.getLsbD k = true := by
  constructor
  · intro hx
    by_contra hnone
    refine hx (BitVec.eq_of_getLsbD_eq fun k hk => ?_)
    have hbit : ¬ x.getLsbD k = true := fun hset => hnone ⟨k, hk, hset⟩
    simpa using hbit
  · rintro ⟨k, -, hset⟩ rfl
    simp at hset

/-- Before the first apply ALERT is deasserted (R137). -/
theorem alertPin_unapplied {s : State} (h : s.descriptor.applied = none) : s.alertPin = false := by
  rw [State.alertPin, State.alert, h]

/-- Under an applied configuration ALERT is asserted exactly for a pending cause in its mask (R137). -/
theorem alertPin_applied {s : State} {cfg : Configuration} (h : s.descriptor.applied = some cfg) :
    s.alertPin = true ↔
      ∃ k, k < 8 ∧ s.causes.getLsbD k = true ∧ cfg.causeMask.getLsbD k = true := by
  have hmask : s.alertPin = (s.causes &&& cfg.causeMask != 0#8) := by
    rw [State.alertPin, State.alert, h]
  rw [hmask, bne_iff_ne, bitVec_ne_zero_iff]
  simp only [BitVec.getLsbD_and, Bool.and_eq_true]

theorem alertPin_iff (s : State) :
    s.alertPin = true ↔ ∃ cfg k, s.descriptor.applied = some cfg ∧ k < 8 ∧
      s.causes.getLsbD k = true ∧ cfg.causeMask.getLsbD k = true := by
  cases h : s.descriptor.applied with
  | none => simp [alertPin_unapplied h]
  | some cfg => simp [alertPin_applied h]

/-- WARN is pending exactly while the monitor is WARNED, whatever the edge causes hold (R135). -/
theorem causes_warn_iff (s : State) :
    s.causes.getLsbD 2 = true ↔ s.monitor.state = .warned := by
  have hedge : (s.status.causes &&& ~~~Cause.warn.bit).getLsbD 2 = false := by
    simp [Cause.bit]
  rw [State.causes, BitVec.getLsbD_or, hedge, Bool.false_or]
  split
  · next hw => exact iff_of_true rfl hw
  · next hw => exact iff_of_false (by simp) hw

/-- ALERT depends on the applied configuration, the edge causes and the monitor state alone
(R134, R135, R137). -/
theorem alertPin_congr {s t : State} (hd : t.descriptor.applied = s.descriptor.applied)
    (hc : t.status.causes = s.status.causes) (hm : t.monitor.state = s.monitor.state) :
    t.alertPin = s.alertPin := by
  have hcauses : t.causes = s.causes := by rw [State.causes, State.causes, hc, hm]
  rw [State.alertPin, State.alertPin, State.alert, State.alert, hd, hcauses]

/-- RST# leaves the pending causes: of the status unit it only invalidates the snapshot (R128, R139). -/
@[simp] theorem resetHost_status_causes (s : State) :
    (resetHost s).status.causes = s.status.causes := by
  simp only [resetHost, apply_ite State.status, portWithdraw_frame, ite_self]

/-- RST_FALLING moves its pin, and resets the host port without power-on reset asserted (R128). -/
theorem exec_rstFalling (s : State) :
    exec .rstFalling s = .next
      (if s.porAsserted then { s with pins := { s.pins with rst := false } }
      else resetHost { s with pins := { s.pins with rst := false } }) := rfl

/-- RST# does not change ALERT (R137). -/
theorem rstFalling_alertPin {s t : State} (h : exec .rstFalling s = .next t) :
    t.alertPin = s.alertPin := by
  rw [exec_rstFalling] at h
  cases h
  split
  · rfl
  · exact alertPin_congr (by simp) (by simp) (by simp)

/-- An invalid descriptor is rejected by the CONFIG_REJECTED notice alone (R159). -/
theorem judgeDescriptor_invalid {s : State} (h : descriptorValid s.descriptor.bytes = false) :
    judgeDescriptor s = setCause .configRejected s := by
  simp [judgeDescriptor, h]

/-- Settles O60: ALERT read bit by bit, WARN apart from the edge causes, RST_FALLING as a command that leaves
all that ALERT depends on, and a rejected descriptor as a notice alone. -/
theorem alertFollowsMaskedCauses : Obligations.AlertFollowsMaskedCauses := by
  intro s
  refine ⟨alertPin_iff s, causes_warn_iff s, fun t => rstFalling_alertPin, fun hbad => ?_, rfl⟩
  rw [judgeDescriptor_invalid hbad]; rfl

end Sys2Proof.Machine

/-! ## The descriptor (R151, R152)

Each field of a descriptor byte is tied to the byte's mask, remainder or quotient once, for every byte; each
condition of R151 is then a lemma of its own, and so is each row of R152. -/

namespace Sys2Proof.Machine

open Sys2Proof

/-! ### The fields of a byte (Tables 9-2 and 9-3) -/

/-- A field of a word is 0 exactly when the word has no bit under the field's mask. -/
theorem extractLsb'_eq_zero_iff {w : Nat} (x : BitVec w) (start len : Nat) :
    x.extractLsb' start len = 0#len ↔
      x &&& (BitVec.allOnes len).setWidth w <<< start = 0#w := by
  rw [← not_iff_not, ← ne_eq, ← ne_eq, bitVec_ne_zero_iff, bitVec_ne_zero_iff]
  constructor
  · rintro ⟨k, hk, hbit⟩
    have hset : x.getLsbD (start + k) = true := by simpa [hk] using hbit
    have hw : start + k < w := BitVec.lt_of_getLsbD hset
    exact ⟨start + k, hw, by simp [hset, hw, hk]⟩
  · rintro ⟨k, -, hbit⟩
    simp only [BitVec.getLsbD_and, BitVec.getLsbD_shiftLeft, BitVec.getLsbD_setWidth,
      BitVec.getLsbD_allOnes, Bool.and_eq_true, Bool.not_eq_true', decide_eq_true_eq,
      decide_eq_false_iff_not] at hbit
    obtain ⟨hset, ⟨-, hstart⟩, -, hlen⟩ := hbit
    have hk : start + (k - start) = k := by omega
    exact ⟨k - start, hlen, by simp [hlen, hk, hset]⟩

/-- A bit of a word is set exactly when the word has a bit under the mask of that bit alone. -/
theorem getLsbD_iff_and_twoPow {w : Nat} (x : BitVec w) {i : Nat} (hi : i < w) :
    x.getLsbD i = true ↔ x &&& BitVec.twoPow w i ≠ 0#w := by
  have hmask : BitVec.twoPow w i ≠ 0#w := (bitVec_ne_zero_iff _).mpr ⟨i, hi, by simp [hi]⟩
  rw [BitVec.and_twoPow]
  cases x.getLsbD i with
  | true => simpa using hmask
  | false => simp

/-- The top four bits of a byte are its quotient by 16. -/
theorem toNat_extractLsb'_high (b : Byte) : (b.extractLsb' 4 4).toNat = b.toNat / 16 := by
  rw [BitVec.extractLsb'_toNat, Nat.shiftRight_eq_div_pow]
  omega

/-- The lowest bits of a byte are its remainder. -/
theorem toNat_extractLsb'_low (b : Byte) (len : Nat) :
    (b.extractLsb' 0 len).toNat = b.toNat % 2 ^ len := by
  rw [BitVec.extractLsb'_toNat, Nat.shiftRight_zero]

/-- The top four bits of a byte are 0 exactly when they leave nothing of it. -/
theorem extractLsb'_high_eq_zero_iff (b : Byte) : b.extractLsb' 4 4 = 0#4 ↔ b >>> 4 = 0#8 := by
  have hshift : (b >>> 4).toNat = b.toNat / 16 := by
    rw [BitVec.toNat_ushiftRight, Nat.shiftRight_eq_div_pow]
  rw [← BitVec.toNat_inj, ← BitVec.toNat_inj, toNat_extractLsb'_high, hshift]
  rfl

/-- The policy encoding as a table in the order of its codes. -/
theorem policyOf_eq_getD (p : BitVec 2) :
    policyOf p = [Policy.defer, .block, .discard, .readonly].getD p.toNat .defer := by
  revert p; decide

/-- The policy in the low two bits of a control byte. -/
theorem policyOf_low (b : Byte) :
    policyOf (b.extractLsb' 0 2) =
      [Policy.defer, .block, .discard, .readonly].getD (b.toNat % 4) .defer := by
  rw [policyOf_eq_getD, toNat_extractLsb'_low _ 2]; rfl

/-- A line is stored high byte first (Table 9-3). -/
theorem toNat_line (high low : Byte) :
    (high ++ low : Line).toNat = 256 * high.toNat + low.toNat := by
  rw [BitVec.toNat_append, ← Nat.shiftLeft_add_eq_or_of_lt low.isLt, Nat.shiftLeft_eq, Nat.mul_comm]

/-! ### The rows (Table 9-3) -/

theorem descriptorRows_eq_map (bs : List Byte) :
    descriptorRows bs = (List.range 8).map (descriptorRow bs) := rfl

@[simp] theorem descriptorRows_length (bs : List Byte) : (descriptorRows bs).length = 8 := rfl

theorem descriptorRows_getElem? (bs : List Byte) {n : Nat} (hn : n < 8) :
    (descriptorRows bs)[n]? = some (descriptorRow bs n) := by
  simp [descriptorRows_eq_map, hn]

theorem descriptorRow_valid (bs : List Byte) (n : Nat) :
    (descriptorRow bs n).valid = (byteAt bs (8 + 5 * n)).getLsbD 7 := rfl

theorem descriptorRow_policy (bs : List Byte) (n : Nat) :
    (descriptorRow bs n).policy =
      [Policy.defer, .block, .discard, .readonly].getD
        ((byteAt bs (8 + 5 * n)).toNat % 4) .defer := policyOf_low _

theorem descriptorRow_merge (bs : List Byte) (n : Nat) :
    (descriptorRow bs n).merge = (byteAt bs (8 + 5 * n)).getLsbD 2 := rfl

theorem toNat_descriptorRow_base (bs : List Byte) (n : Nat) :
    (descriptorRow bs n).base.toNat =
      256 * (byteAt bs (9 + 5 * n)).toNat + (byteAt bs (10 + 5 * n)).toNat := by
  have hhigh : rowBase n + 1 = 9 + 5 * n := by rw [rowBase]; omega
  have hlow : rowBase n + 2 = 10 + 5 * n := by rw [rowBase]; omega
  rw [← hhigh, ← hlow]
  exact toNat_line _ _

theorem toNat_descriptorRow_limit (bs : List Byte) (n : Nat) :
    (descriptorRow bs n).limit.toNat =
      256 * (byteAt bs (11 + 5 * n)).toNat + (byteAt bs (12 + 5 * n)).toNat := by
  have hhigh : rowBase n + 3 = 11 + 5 * n := by rw [rowBase]; omega
  have hlow : rowBase n + 4 = 12 + 5 * n := by rw [rowBase]; omega
  rw [← hhigh, ← hlow]
  exact toNat_line _ _

/-! ### The five conditions (R151) -/

/-- Condition 2: the 8-bit sum is 00H. -/
theorem byteSum_eq_zero_iff (bs : List Byte) :
    byteSum bs = 0#8 ↔ (bs.map BitVec.toNat).sum % 256 = 0 := by
  rw [← BitVec.toNat_inj, toNat_byteSum]
  rfl

/-- Condition 4: no byte has a bit under its mask of reserved bits. -/
theorem reservedBitsClear_iff (bs : List Byte) :
    reservedBitsClear bs = true ↔
      byteAt bs 3 &&& 0xF8#8 = 0#8 ∧ byteAt bs 4 &&& 0xF0#8 = 0#8 ∧
      byteAt bs 5 &&& 0x0C#8 = 0#8 ∧
      ∀ n < 8, byteAt bs (8 + 5 * n) &&& 0x78#8 = 0#8 := by
  have hnumbers : [0, 1, 2, 3, 4, 5, 6, 7] = List.range 8 := rfl
  simp only [reservedBitsClear, hnumbers, Bool.and_eq_true, beq_iff_eq, List.all_eq_true,
    List.mem_range, extractLsb'_eq_zero_iff, and_assoc]
  rfl

/-- Condition 5: every valid row has its base line not above its limit line. -/
theorem descriptorRows_ordered_iff (bs : List Byte) :
    ((descriptorRows bs).all fun r => !r.valid || r.base ≤ r.limit) = true ↔
      ∀ n < 8, byteAt bs (8 + 5 * n) &&& 0x80#8 ≠ 0#8 →
        256 * (byteAt bs (9 + 5 * n)).toNat + (byteAt bs (10 + 5 * n)).toNat ≤
          256 * (byteAt bs (11 + 5 * n)).toNat + (byteAt bs (12 + 5 * n)).toNat := by
  have hvalid (n : Nat) :
      (descriptorRow bs n).valid = true ↔ byteAt bs (8 + 5 * n) &&& 0x80#8 ≠ 0#8 := by
    rw [descriptorRow_valid]
    exact getLsbD_iff_and_twoPow _ (by decide)
  simp only [descriptorRows_eq_map, List.all_map, List.all_eq_true, List.mem_range,
    Function.comp_apply, Bool.or_eq_true, Bool.not_eq_true', ← Bool.not_eq_true,
    decide_eq_true_eq, ← imp_iff_not_or, hvalid, BitVec.le_def, toNat_descriptorRow_base,
    toNat_descriptorRow_limit]

/-- The five conditions of R151, in arithmetic on the bytes. -/
theorem descriptorValid_iff (bs : List Byte) :
    descriptorValid bs = true ↔
      (byteAt bs 0 = 0x6C#8 ∧ byteAt bs 1 = 0x3A#8) ∧
      (bs.map BitVec.toNat).sum % 256 = 0 ∧
      byteAt bs 5 >>> 4 ≠ 0#8 ∧
      (byteAt bs 3 &&& 0xF8#8 = 0#8 ∧ byteAt bs 4 &&& 0xF0#8 = 0#8 ∧
        byteAt bs 5 &&& 0x0C#8 = 0#8 ∧
        ∀ n < 8, byteAt bs (8 + 5 * n) &&& 0x78#8 = 0#8) ∧
      ∀ n < 8, byteAt bs (8 + 5 * n) &&& 0x80#8 ≠ 0#8 →
        256 * (byteAt bs (9 + 5 * n)).toNat + (byteAt bs (10 + 5 * n)).toNat ≤
          256 * (byteAt bs (11 + 5 * n)).toNat + (byteAt bs (12 + 5 * n)).toNat := by
  rw [← byteSum_eq_zero_iff, ne_eq, ← extractLsb'_high_eq_zero_iff, ← reservedBitsClear_iff,
    ← descriptorRows_ordered_iff, descriptorValid]
  simp only [Bool.and_eq_true, beq_iff_eq, bne_iff_ne, ne_eq, and_assoc]

/-- Settles O58: `descriptorValid_iff` gives the five conditions; each field of the configuration is a byte, a
bit, a remainder or a quotient, and each row is read by the row lemmas. None of it rests on the length. -/
theorem descriptorValidityAndConfiguration : Obligations.DescriptorValidityAndConfiguration := by
  intro bs _
  refine ⟨descriptorValid_iff bs, policyOf_low _, rfl, toNat_extractLsb'_low _ 3, rfl,
    congrArg (· + 1) (toNat_extractLsb'_low _ 2), toNat_extractLsb'_high _, rfl, rfl, rfl,
    descriptorRows_length bs, fun n hn => ?row⟩
  case row =>
    exact ⟨descriptorRow bs n, descriptorRows_getElem? bs hn, descriptorRow_valid bs n,
      descriptorRow_policy bs n, descriptorRow_merge bs n, toNat_descriptorRow_base bs n,
      toNat_descriptorRow_limit bs n⟩

end Sys2Proof.Machine

/-! ## What a step can do

The invariants that every step keeps (R2, R6, R69, R83, R108, R114, R117, R119, R133) are each about a few
fields, and a step is a composition of some ninety operations. `Move` lists once what those operations do to
these fields; each operation is then shown to be a sequence of moves, and each invariant is checked on the
moves alone. -/

namespace Sys2Proof.Machine

open Sys2Proof

-- One declaration after the other: each thread's stack counts against the memory of the compile.
set_option Elab.async false

/-! ### The host port's part of HostPortInv -/

/-- Which tie between the host port and the memory port a sequence of moves relies on: none; the one of
HostPortInv; or the one that holds within the completion of a HOST access, whose end the port has not taken
yet. -/
inductive HostTie
  | nothing | running | ended

/-- A host read is never stalled and never answered ERR (R119). -/
def readUnstalled (s : State) : Prop :=
  ∀ acc, s.host.access = some acc → acc.op.isRead = true →
    acc.stage ≠ .answered .err ∧ ∀ k, acc.stage ≠ .stalled k

/-- A HOST request that waits is that of the access in progress, which is ON_PORT (R104, R117). -/
def hostAsking (s : State) : Prop :=
  ∀ op, s.port.waiting.host = some op →
    s.host.orphan = false ∧ ∃ rel, s.host.access = some ⟨op, .onPort, rel⟩

/-- The tie that holds between the host port and the memory port. -/
def hostTied : HostTie → State → Prop
  | .nothing, _ => True
  | .running, s => HostPortInv s
  | .ended, s => readUnstalled s ∧ hostAsking s

/-- The memory port holds nothing of the access in progress, so that its stage may change. -/
def hostFree : HostTie → State → Prop
  | .nothing, _ => True
  | .running, s => s.port.waiting.host = none ∧
      ∀ op ph, s.port.access = some ⟨.host, op, ph⟩ → s.host.orphan = true
  | .ended, s => s.port.waiting.host = none

/-- An access that is not ON_PORT has nothing on the memory port (R117). -/
theorem hostFree_of_notOnPort {k : HostTie} {s : State} (h : hostTied k s)
    (hs : ∀ op rel, s.host.access ≠ some ⟨op, .onPort, rel⟩) : hostFree k s := by
  have hnone (ha : hostAsking s) : s.port.waiting.host = none := by
    by_contra hw
    obtain ⟨op, hop⟩ := Option.ne_none_iff_exists'.1 hw
    obtain ⟨-, rel, hacc⟩ := ha op hop
    exact hs op rel hacc
  cases k with
  | nothing => trivial
  | running =>
    obtain ⟨-, hask, hrun⟩ := h
    refine ⟨hnone fun op hop => ⟨(hask op hop).1, (hask op hop).2.1⟩, fun op ph hp => ?_⟩
    by_contra ho
    obtain ⟨rel, hacc⟩ := hrun op ph hp (by simpa using ho)
    exact hs op rel hacc
  | ended => exact hnone h.2

/-- A write is stalled for a slot (R40). -/
def slotWrite (s : State) : Prop :=
  ∃ a b merge rel, s.host.access = some ⟨.write a b, .stalled (.slot merge), rel⟩

/-! ### The moves -/

/-- A saturating count does not fall by its step (R133). -/
@[simp] theorem le_saturate (n : Byte) : n ≤ saturate n := by
  unfold saturate
  split
  · exact BitVec.le_refl n
  · next h =>
    have hn : n.toNat ≠ 255 := fun he => h (BitVec.eq_of_toNat_eq he)
    bv_omega

@[simp] theorem stop_rampLevel (e : DrainEngine) : e.stop.rampLevel = e.rampLevel := rfl

@[simp] theorem stop_attempts (e : DrainEngine) : e.stop.attempts = 0 := rfl

/-- A change outside the fields that the moves are about: the queue, the host access, the requests and the
access of the memory port, the memory and the mode stay, the counts do not fall (R133), and the ranges of
the engine and the monitor are kept (R69, R83). -/
structure Side (s t : State) : Prop where
  queue : t.queue = s.queue := by simp
  access : t.host.access = s.host.access := by simp
  orphan : t.host.orphan = s.host.orphan := by simp
  portAccess : t.port.access = s.port.access := by simp
  waiting : t.port.waiting = s.port.waiting := by simp
  memory : t.memory = s.memory := by simp
  mode : t.control.mode = s.control.mode := by simp
  counts : s.status.rejected ≤ t.status.rejected ∧ s.status.discarded ≤ t.status.discarded ∧
    s.status.dropped ≤ t.status.dropped := by simp
  engine : EngineInv s → EngineInv t := by simp +contextual [EngineInv]
  monitor : MonitorInv s → MonitorInv t := by simp [MonitorInv, State.config]

/-- The stage is one that the access can be in: a read is neither stalled nor answered ERR (R119), and a slot
stall is of a write off the status line that found 32 entries (R9, R32). Without a tie nothing is said of
reads. -/
structure StageFits (k : HostTie) (st : Stage) (s : State) : Prop where
  read : k ≠ .nothing → ∀ acc, s.host.access = some acc → acc.op.isRead = true →
    st ≠ .answered .err ∧ ∀ k, st ≠ .stalled k
  slot : ∀ merge, st = .stalled (.slot merge) →
    32 ≤ s.queue.length ∧ ∀ acc, s.host.access = some acc → inStatusLine acc.op.addr = false

/-- One move of a step. `base` is the memory port's access as the step began: the mode changes only while
nothing has been granted since (R108). -/
inductive Move (k : HostTie) (base : Option PortAccess) : State → State → Prop
  /-- The fields outside the moves change. -/
  | side {s t : State} : Side s t → Move k base s t
  /-- A waiting request that the mode gate lets through is granted on an IDLE port (R106, R108). -/
  | grant {s : State} (r : Requester) (op : BusOp) : s.port.access = none →
      s.port.waiting.get r = some op → gateOpen s.control.mode r op = true →
      Move k base s (grant r op s)
  /-- A request comes to wait; a HOST request is the access's own (R104, R117). -/
  | request {s : State} (r : Requester) (op : BusOp) :
      (r = .host → k ≠ .nothing → hostFree k s ∧ s.host.orphan = false ∧
        ∃ rel, s.host.access = some ⟨op, .onPort, rel⟩) →
      Move k base s { s with port := { s.port with waiting := s.port.waiting.put r (some op) } }
  /-- A waiting request is withdrawn (R105). -/
  | withdraw {s : State} (r : Requester) : Move k base s (portWithdraw r s)
  /-- The mode changes; a mode that holds no entry is entered with none held (R6, R61, R65). -/
  | setMode {s : State} (m : Mode) : s.port.access = base →
      (emptyMode m = true → emptyMode s.control.mode = true ∨ s.queue = []) →
      Move k base s (setMode m s)
  /-- The queue changes: an entry joins in a mode that holds entries, and none leaves past a stalled write
  (R6, R41). -/
  | queue {s : State} (q : List Entry) : (QueueInv s → queueWf q) →
      (slotWrite s → 32 ≤ s.queue.length → 32 ≤ q.length) →
      (emptyMode s.control.mode = true → s.queue = [] → ¬ slotWrite s → q = []) →
      Move k base s { s with queue := q }
  /-- The queue takes the stalled write as an entry leaves it (R41). -/
  | exchange {s : State} (q : List Entry) : slotWrite s → (QueueInv s → queueWf q) →
      Move k base s (answerHost .done { s with queue := q })
  /-- An access begins (R118). -/
  | begin {s : State} (op : BusOp) : s.host.access = none →
      Move k base s { s with host := { s.host with access := some ⟨op, .waiting .startUp, false⟩ } }
  /-- The access in progress moves to a stage (R117). -/
  | stage {s : State} (st : Stage) : hostFree k s → StageFits k st s → Move k base s (setStage st s)
  /-- The outcome of the access is decided (R119, R120). -/
  | answer {s : State} (ans : Answer) : hostFree k s → StageFits k (.answered ans) s →
      Move k base s (answerHost ans s)
  /-- The host ends or releases its access (R119, R120). -/
  | leave {s : State} (acc : HostAccess) : s.host.access = some acc →
      Move k base s (endOrRelease acc s)
  /-- RST# cuts the access off (R128). -/
  | reset {s : State} : Move k base s (resetHost s)
  /-- A cancelled access has run to its end (R129). -/
  | orphanEnd {s : State} : k ≠ .running →
      Move k base s { s with host := { s.host with orphan := false } }

/-- A sequence of moves. -/
abbrev Moves (k : HostTie) (base : Option PortAccess) : State → State → Prop :=
  Relation.ReflTransGen (Move k base)

section

variable {k : HostTie} {base : Option PortAccess} {s t : State}

theorem Move.moves (h : Move k base s t) : Moves k base s t := .single h

theorem Side.moves (h : Side s t) : Moves k base s t := (Move.side h).moves

theorem Moves.trans {u : State} (h : Moves k base s t) (h' : Moves k base t u) : Moves k base s u :=
  Relation.ReflTransGen.trans h h'

/-- A change outside the moves' fields comes last. -/
theorem Moves.thenSide {u : State} (h : Moves k base s t) (hs : Side t u := by exact {}) :
    Moves k base s u := h.trans hs.moves

/-- A change outside the moves' fields comes first. -/
theorem Moves.afterSide {u : State} (h : Moves k base t u) (hs : Side s t := by exact {}) :
    Moves k base s u := hs.moves.trans h

end

/-! ### What the moves keep -/

section Kept

variable {k : HostTie} {base : Option PortAccess} {s t : State}

/-- A relation that every move keeps to is kept to by every sequence of moves. -/
theorem Moves.keeps {P : State → Prop} (h : Moves k base s t)
    (hmove : ∀ {u v}, Move k base u v → P u → P v) (hs : P s) : P t := by
  induction h with
  | refl => exact hs
  | tail _ hm ih => exact hmove hm ih

@[simp] theorem resetHost_status_counts (s : State) :
    (resetHost s).status.rejected = s.status.rejected ∧
    (resetHost s).status.discarded = s.status.discarded ∧
    (resetHost s).status.dropped = s.status.dropped := by
  unfold resetHost; dsimp only
  (repeat' split) <;> simp

/-- Every move is outside the moves' fields, or leaves the engine, the monitor, the configuration and the
saturating counts. -/
theorem Move.side_or (h : Move k base s t) :
    Side s t ∨ (t.engine = s.engine ∧ t.monitor = s.monitor ∧ t.descriptor = s.descriptor ∧
      t.status.rejected = s.status.rejected ∧ t.status.discarded = s.status.discarded ∧
      t.status.dropped = s.status.dropped) := by
  cases h with
  | side h => exact .inl h
  | _ => exact .inr (by simp)

/-- The ramp level and the attempt count stay in their ranges (R83). -/
theorem Move.engineInv (h : Move k base s t) (hs : EngineInv s) : EngineInv t := by
  rcases h.side_or with h | ⟨he, -⟩
  · exact h.engine hs
  · rw [EngineInv, he]; exact hs

/-- The filters and the runs stay in their ranges (R69, R80). -/
theorem Move.monitorInv (h : Move k base s t) (hs : MonitorInv s) : MonitorInv t := by
  rcases h.side_or with h | ⟨-, hm, hd, -⟩
  · exact h.monitor hs
  · have hc : t.config = s.config := by rw [State.config, State.config, hd]
    rw [MonitorInv, hm, hc]; exact hs

/-- The saturating counts of a state are not below those of another (R133). -/
def countsRisen (s t : State) : Prop :=
  s.status.rejected ≤ t.status.rejected ∧ s.status.discarded ≤ t.status.discarded ∧
    s.status.dropped ≤ t.status.dropped

theorem countsRisen.trans {u : State} (h : countsRisen s t) (h' : countsRisen t u) :
    countsRisen s u :=
  ⟨BitVec.le_trans h.1 h'.1, BitVec.le_trans h.2.1 h'.2.1, BitVec.le_trans h.2.2 h'.2.2⟩

/-- The saturating counts do not fall (R133). -/
theorem Move.countsRisen (h : Move k base s t) : countsRisen s t := by
  rcases h.side_or with h | ⟨-, -, -, hr, hd, hp⟩
  · exact h.counts
  · exact ⟨BitVec.le_of_eq hr.symm, BitVec.le_of_eq hd.symm, BitVec.le_of_eq hp.symm⟩

theorem slotStallQueueable_iff (s : State) :
    slotStallQueueable s = true ↔
      ∀ op merge rel, s.host.access = some ⟨op, .stalled (.slot merge), rel⟩ →
        inStatusLine op.addr = false := by
  unfold slotStallQueueable
  split
  · next op merge rel h => simp [h]
  · next h => exact iff_of_true rfl fun op merge rel he => absurd he (h op merge rel)

@[simp] theorem resetHost_host_access (s : State) : (resetHost s).host.access = none := rfl

/-- An access that still stands at its outcome is answered (R119, R120). -/
theorem answerHost_host_access {ans : Answer} {acc : HostAccess}
    (h : (answerHost ans s).host.access = some acc) :
    acc.stage = .answered ans ∧ ∃ acc', s.host.access = some acc' ∧ acc'.op = acc.op := by
  unfold answerHost at h
  split at h
  · next hn => rw [hn] at h; cases h
  · next a ha =>
    dsimp only at h
    split at h
    · cases h
    · cases h
      exact ⟨rfl, a, ha, rfl⟩

/-- An access that still stands after the host's return of a line is released, at its stage (R120). -/
theorem endOrRelease_host_access {acc acc' : HostAccess}
    (h : (endOrRelease acc s).host.access = some acc') : acc' = { acc with released := true } := by
  unfold endOrRelease at h
  dsimp only at h
  split at h <;> cases h
  rfl

/-- The access of a state moved to a stage (R117). -/
theorem setStage_host_access_some {st : Stage} {acc : HostAccess}
    (h : (setStage st s).host.access = some acc) :
    ∃ acc', s.host.access = some acc' ∧ acc = { acc' with stage := st } := by
  obtain ⟨acc', ha, he⟩ := Option.map_eq_some_iff.1 ((setStage_host_access st s).symm.trans h)
  exact ⟨acc', ha, he.symm⟩

/-- The queue stays within R1, R2 and R4, and a write stalled for a slot is one it takes. -/
theorem Move.queueInv (h : Move k base s t) (hs : QueueInv s) : QueueInv t := by
  have hq := hs.1
  have hw := (slotStallQueueable_iff s).1 hs.2
  rw [QueueInv, slotStallQueueable_iff]
  cases h with
  | side h => rw [h.queue, h.access]; exact ⟨hq, hw⟩
  | queue q hq' => exact ⟨hq' hs, hw⟩
  | exchange q _ hq' =>
    exact ⟨by simpa using hq' hs, fun op merge rel h => by cases (answerHost_host_access h).1⟩
  | answer ans _ _ =>
    exact ⟨by simpa using hq, fun op merge rel h => by cases (answerHost_host_access h).1⟩
  | stage st _ hf =>
    refine ⟨by simpa using hq, fun op merge rel h => ?_⟩
    obtain ⟨acc, hacc, he⟩ := setStage_host_access_some h
    obtain ⟨rfl, hst, -⟩ := HostAccess.mk.inj he
    exact (hf.slot merge hst.symm).2 acc hacc
  | leave acc hacc =>
    refine ⟨by simpa using hq, fun op merge rel h => ?_⟩
    obtain ⟨rfl, hst, -⟩ := HostAccess.mk.inj (endOrRelease_host_access h)
    exact hw acc.op merge acc.released (by rw [hacc, hst])
  | reset => exact ⟨by simpa using hq, fun op merge rel h => by simp at h⟩
  | begin op _ => exact ⟨hq, fun op merge rel h => by simp at h⟩
  | _ => exact ⟨by simpa using hq, by simpa using hw⟩

/-- The queue is empty in the modes that hold no entry (R6, 3.8), and full while a write is stalled for a
slot (R41). -/
def occupied (s : State) : Prop :=
  (emptyMode s.control.mode = true → s.queue = []) ∧ (slotWrite s → 32 ≤ s.queue.length)

/-- The occupancy follows the mode and the stalled write (R6, R41). -/
theorem Move.occupied (h : Move k base s t) (hs : occupied s) : occupied t := by
  obtain ⟨hm, hw⟩ := hs
  cases h with
  | side h =>
    exact ⟨by rw [h.mode, h.queue]; exact hm, by rw [slotWrite, h.access, h.queue]; exact hw⟩
  | setMode m _ hm' =>
    refine ⟨fun he => ?_, by simpa [slotWrite] using hw⟩
    rcases hm' he with h | h
    · simpa using hm h
    · simpa using h
  | queue q _ hq he =>
    refine ⟨fun hmode => ?_, fun hsl => hq hsl (hw hsl)⟩
    refine he hmode (hm hmode) fun hsl => ?_
    have := hw hsl
    rw [hm hmode] at this
    cases this
  | exchange q hsl _ =>
    refine ⟨fun hmode => ?_, fun ⟨_, _, _, _, h⟩ => by cases (answerHost_host_access h).1⟩
    have := hw hsl
    rw [hm (by simpa using hmode)] at this
    cases this
  | answer ans _ _ =>
    exact ⟨by simpa using hm, fun ⟨_, _, _, _, h⟩ => by cases (answerHost_host_access h).1⟩
  | stage st _ hf =>
    refine ⟨by simpa using hm, fun ⟨a, b, merge, rel, h⟩ => ?_⟩
    obtain ⟨acc, hacc, he⟩ := setStage_host_access_some h
    simpa using (hf.slot merge (HostAccess.mk.inj he).2.1.symm).1
  | leave acc hacc =>
    refine ⟨by simpa using hm, fun ⟨a, b, merge, rel, h⟩ => ?_⟩
    obtain ⟨hop, hst, -⟩ := HostAccess.mk.inj (endOrRelease_host_access h)
    simpa using hw ⟨a, b, merge, acc.released, by rw [hacc, hop, hst]⟩
  | reset => exact ⟨by simpa using hm, fun ⟨_, _, _, _, h⟩ => by simp at h⟩
  | begin op _ => exact ⟨hm, fun ⟨_, _, _, _, h⟩ => by simp at h⟩
  | _ => exact ⟨by simpa using hm, by simpa [slotWrite] using hw⟩

/-! ### Grants and the memory -/

/-- What has become of the memory port since the step began: its access and the memory are as they were, or,
where it was IDLE, a request that the mode lets through has been granted, and the memory is as it was but for
the byte of a write that began (R106, R108, R114). -/
def grantedSince (base : Option PortAccess) (m : Memory) (t : State) : Prop :=
  (t.port.access = base ∧ t.memory = m) ∨
    (base = none ∧ ∃ acc, t.port.access = some acc ∧
      gateOpen t.control.mode acc.requester acc.op = true ∧
      (t.memory = m ∨ ∃ a b, acc.op = .write a b ∧ t.memory = memForget m a))

/-- At most one grant is made on an IDLE port, and none while an access is in progress (R103, R106). -/
theorem Move.grantedSince {m : Memory} (h : Move k base s t) (hs : grantedSince base m s) :
    grantedSince base m t := by
  cases h with
  | side h => rw [Machine.grantedSince, h.portAccess, h.memory, h.mode]; exact hs
  | grant r op hn _ hg =>
    rcases hs with ⟨hb, hm⟩ | ⟨-, acc, ha, -⟩
    · refine .inr ⟨by rw [← hb, hn], ⟨r, op, grantPhase s op⟩, by rw [grant_eq], by simpa using hg, ?_⟩
      rw [grant_eq, ← hm]
      cases op with
      | read a => exact .inl rfl
      | write a b =>
        show grantMemory s (.write a b) = s.memory ∨ _
        rw [grantMemory]
        split
        · exact .inr ⟨a, b, rfl, rfl⟩
        · exact .inl rfl
    · rw [hn] at ha; cases ha
  | setMode m' hb _ =>
    rcases hs with ⟨ha, hm⟩ | ⟨hn, acc, ha, -⟩
    · exact .inl ⟨by simpa using ha, by simpa using hm⟩
    · rw [hb, hn] at ha; cases ha
  | reset =>
    have hp : (resetHost s).port.access = s.port.access := by
      unfold resetHost; dsimp only
      (repeat' split) <;> simp
    simpa [Machine.grantedSince, hp] using hs
  | _ => simpa [Machine.grantedSince] using hs

/-! ### The host port's tie -/

theorem resetHost_port_access (s : State) : (resetHost s).port.access = s.port.access := by
  unfold resetHost; dsimp only
  (repeat' split) <;> simp

@[simp] theorem put_host_other (w : Waiting) {r : Requester} (o : Option BusOp) (h : r ≠ .host) :
    (w.put r o).host = w.host := put_get_other w (r' := .host) o h.symm

/-- What HostPortInv says of a state whose port IDLE or busy is left out of account. -/
theorem HostPortInv.ended (h : HostPortInv s) : hostTied .ended s :=
  ⟨h.1, fun op hop => ⟨(h.2.1 op hop).1, (h.2.1 op hop).2.1⟩⟩

/-- A tie whose access and requests are another state's holds there too. -/
theorem hostTied_congr (ha : t.host.access = s.host.access) (ho : t.host.orphan = s.host.orphan)
    (hp : t.port.access = s.port.access) (hw : t.port.waiting.host = s.port.waiting.host)
    (h : hostTied k s) : hostTied k t := by
  cases k with
  | nothing => trivial
  | running => simpa only [hostTied, HostPortInv, ha, ho, hp, hw] using h
  | ended => simpa only [hostTied, readUnstalled, hostAsking, ha, ho, hw] using h

/-- While the memory port holds nothing of the access, its stage is free but for the reads' own rule. -/
theorem hostTied_of_free (hf : hostFree k s) (ho : t.host.orphan = s.host.orphan)
    (hp : t.port.access = s.port.access) (hw : t.port.waiting.host = s.port.waiting.host)
    (hr : readUnstalled t) : hostTied k t := by
  cases k with
  | nothing => trivial
  | running =>
    obtain ⟨hn, hrun⟩ := hf
    refine ⟨hr, fun op hop => ?_, fun op ph hacc hor => ?_⟩
    · rw [hw, hn] at hop; cases hop
    · rw [hp] at hacc; rw [ho, hrun op ph hacc] at hor; cases hor
  | ended =>
    refine ⟨hr, fun op hop => ?_⟩
    rw [hw, show s.port.waiting.host = none from hf] at hop; cases hop

/-- Whatever the tie says of reads, it says of every state that has one. -/
theorem hostTied.readUnstalled (hk : k ≠ .nothing) (h : hostTied k s) : readUnstalled s := by
  cases k with
  | nothing => exact absurd rfl hk
  | running => exact h.1
  | ended => exact h.1

/-- Nothing waits for the host once its HOST request is withdrawn. -/
theorem hostTied_withdraw (h : hostTied k s) : hostTied k (portWithdraw .host s) := by
  cases k with
  | nothing => trivial
  | running =>
    obtain ⟨hr, -, hrun⟩ := h
    exact ⟨hr, fun op hop => by simp [Waiting.put] at hop, by simpa using hrun⟩
  | ended => exact ⟨h.1, fun op hop => by simp [Waiting.put] at hop⟩

/-- A grant takes a request from those that wait to the access (R106). -/
theorem hostTied_grant {r : Requester} {op : BusOp} (hw : s.port.waiting.get r = some op)
    (h : hostTied k s) : hostTied k (grant r op s) := by
  rw [grant_eq]
  by_cases hr : r = .host
  · subst hr
    have hput : (s.port.waiting.put .host none).host = none := rfl
    cases k with
    | nothing => trivial
    | running =>
      obtain ⟨h1, h2, -⟩ := h
      refine ⟨h1, fun o ho => ?_, fun o ph ho hor => ?_⟩
      · rw [hput] at ho; cases ho
      · cases ho
        exact (h2 op hw).2.1
    | ended => exact ⟨h.1, fun o ho => by rw [hput] at ho; cases ho⟩
  · have hput := put_host_other s.port.waiting none hr
    cases k with
    | nothing => trivial
    | running =>
      obtain ⟨h1, h2, -⟩ := h
      refine ⟨h1, fun o ho => ?_, fun o ph ho hor => ?_⟩
      · rw [hput] at ho
        refine ⟨(h2 o ho).1, (h2 o ho).2.1, fun o' ph he => ?_⟩
        cases he
        exact hr rfl
      · cases ho
        exact absurd rfl hr
    | ended => exact ⟨h.1, fun o ho => h.2 o (by rwa [hput] at ho)⟩

/-- RST# leaves no access, and a HOST access that runs on runs cancelled (R128). -/
theorem hostTied_reset (h : hostTied k s) : hostTied k (resetHost s) := by
  have hread : Machine.readUnstalled (resetHost s) := fun acc ha => by simp at ha
  have hwait (hask : hostAsking s) : (resetHost s).port.waiting.host = none := by
    by_contra hne
    obtain ⟨op, hop⟩ := Option.ne_none_iff_exists'.1 hne
    have hsub : s.port.waiting.host = some op := by
      unfold resetHost at hop; dsimp only at hop
      split at hop
      · split at hop
        · simp [Waiting.put] at hop
        · exact hop
      · simpa using hop
    obtain ⟨-, rel, hacc⟩ := hask op hsub
    simp [resetHost, hacc, hostUngranted, Waiting.get, hsub, Waiting.put] at hop
  cases k with
  | nothing => trivial
  | running =>
    obtain ⟨-, hask, hrun⟩ := h
    refine ⟨hread, fun op hop => ?_, fun op ph hp hor => ?_⟩
    · rw [hwait fun op hop => ⟨(hask op hop).1, (hask op hop).2.1⟩] at hop; cases hop
    · rw [resetHost_port_access] at hp
      have hos : s.host.orphan = false := by
        simp only [resetHost, Bool.or_eq_false_iff] at hor; exact hor.1
      obtain ⟨rel, hacc⟩ := hrun op ph hp hos
      have hnone : s.port.waiting.host = none := by
        by_contra hne
        obtain ⟨o, ho⟩ := Option.ne_none_iff_exists'.1 hne
        exact (hask o ho).2.2 op ph hp
      simp [resetHost, hacc, hostUngranted, Waiting.get, hnone, hos] at hor
  | ended =>
    exact ⟨hread, fun op hop => by rw [hwait h.2] at hop; cases hop⟩

/-- An ON_PORT access that the host releases is ON_PORT still (R120). -/
theorem hostTied_release {acc : HostAccess} (hacc : s.host.access = some acc)
    (hst : acc.stage = .onPort) (h : hostTied k s) : hostTied k (endOrRelease acc s) := by
  have hacc' : (endOrRelease acc s).host.access = some { acc with released := true } := by
    simp [endOrRelease, hst]
  have hread : Machine.readUnstalled (endOrRelease acc s) := fun a ha _ => by
    rw [hacc'] at ha; cases ha; simp [hst]
  have hop {op : BusOp} (hx : ∃ rel, s.host.access = some ⟨op, .onPort, rel⟩) :
      ∃ rel, (endOrRelease acc s).host.access = some ⟨op, .onPort, rel⟩ := by
    obtain ⟨rel, hx⟩ := hx
    rw [hacc] at hx; cases hx
    exact ⟨true, hacc'⟩
  cases k with
  | nothing => trivial
  | running =>
    obtain ⟨-, hask, hrun⟩ := h
    exact ⟨hread, fun op hw => ⟨(hask op hw).1, hop (hask op hw).2.1, (hask op hw).2.2⟩,
      fun op ph hp ho => hop (hrun op ph hp ho)⟩
  | ended =>
    obtain ⟨-, hask⟩ := h
    exact ⟨hread, fun op hw => ⟨(hask op hw).1, hop (hask op hw).2⟩⟩

/-- Every move keeps the tie between the host port and the memory port (R104, R117, R119). -/
theorem Move.hostTied (h : Move k base s t) (hs : hostTied k s) : hostTied k t := by
  by_cases hk : k = .nothing
  · subst hk; trivial
  have hread := hs.readUnstalled hk
  cases h with
  | side h => exact hostTied_congr h.access h.orphan h.portAccess (by rw [h.waiting]) hs
  | grant r op _ hw _ => exact hostTied_grant hw hs
  | request r op hr =>
    by_cases hh : r = .host
    · obtain ⟨hf, ho, hacc⟩ := hr hh hk
      subst hh
      cases k with
      | nothing => trivial
      | running =>
        refine ⟨hread, fun o he => ?_, hs.2.2⟩
        cases he
        refine ⟨ho, hacc, fun o ph hp => ?_⟩
        have := hf.2 o ph hp
        rw [ho] at this; cases this
      | ended =>
        refine ⟨hread, fun o he => ?_⟩
        cases he
        exact ⟨ho, hacc⟩
    · exact hostTied_congr (s := s) rfl rfl rfl (put_host_other _ _ hh) hs
  | withdraw r =>
    by_cases hh : r = .host
    · subst hh; exact hostTied_withdraw hs
    · exact hostTied_congr (by simp) (by simp) (by simp) (by simp [hh]) hs
  | begin op hn =>
    refine hostTied_of_free (s := s) (hostFree_of_notOnPort hs fun op rel h => ?_) rfl rfl rfl ?_
    · rw [hn] at h; cases h
    · intro acc ha _
      cases ha
      simp
  | stage st hf hfit =>
    refine hostTied_of_free hf (by simp) (by simp) (by simp) fun acc ha hr => ?_
    obtain ⟨acc', ha', rfl⟩ := setStage_host_access_some ha
    exact hfit.read hk acc' ha' hr
  | answer ans hf hfit =>
    refine hostTied_of_free hf ?_ (by simp) (by simp) fun acc ha hr => ?_
    · unfold answerHost; split <;> rfl
    · obtain ⟨hst, acc', ha', hop⟩ := answerHost_host_access ha
      rw [hst]
      exact hfit.read hk acc' ha' (by rw [hop]; exact hr)
  | exchange q hsl _ =>
    obtain ⟨a, b, m, rel, hacc⟩ := hsl
    refine hostTied_of_free (s := s) (hostFree_of_notOnPort hs fun op rel h => ?_) ?_ (by simp)
      (by simp) fun acc ha hr => ?_
    · rw [hacc] at h; cases h
    · unfold answerHost; split <;> rfl
    · obtain ⟨hst, -⟩ := answerHost_host_access ha
      rw [hst]; simp
  | leave acc hacc =>
    by_cases hst : acc.stage = .onPort
    · exact hostTied_release hacc hst hs
    · refine hostTied_of_free (s := s) (hostFree_of_notOnPort hs fun op rel h => ?_) rfl (by simp)
        (by simp) fun acc' ha hr => ?_
      · rw [hacc] at h; cases h; exact hst rfl
      · rw [endOrRelease_host_access ha] at hr ⊢
        exact hread acc hacc hr
  | reset => exact hostTied_reset hs
  | orphanEnd hk' =>
    cases k with
    | nothing => trivial
    | running => exact absurd rfl hk'
    | ended => exact ⟨hread, fun op hop => ⟨rfl, (hs.2 op hop).2⟩⟩
  | _ => exact hostTied_congr (by simp) (by simp) (by simp) (by simp) hs

end Kept

/-! ### Each operation as a sequence of moves -/

section Operations

variable {k : HostTie} {base : Option PortAccess} {s t : State}

theorem Moves.hostTied (h : Moves k base s t) (hs : hostTied k s) : hostTied k t :=
  h.keeps Move.hostTied hs

/-! #### The memory port, the status writer and the drain engine -/

theorem decideGrant_moves (s : State) : Moves k base s (decideGrant s) := by
  rcases decideGrant_cases s with he | ⟨r, op, hn, hw, hg, he⟩ <;> rw [he]
  exact (Move.grant r op hn hw hg).moves

/-- A request of a block other than the host port. -/
theorem portRequest_moves {r : Requester} (op : BusOp) (hr : r ≠ .host) (s : State) :
    Moves k base s (portRequest r op s) :=
  (Move.request r op fun h => absurd h hr).moves.trans (decideGrant_moves _)

theorem beginStatusWrite_moves (s : State) : Moves k base s (beginStatusWrite s) :=
  (portRequest_moves _ (by simp) _).afterSide

theorem requestStatusWrite_moves (s : State) : Moves k base s (requestStatusWrite s) := by
  rcases requestStatusWrite_cases s with ⟨-, he⟩ | ⟨-, -, he⟩ | ⟨-, -, he⟩ <;> rw [he]
  · exact beginStatusWrite_moves s
  · exact Side.moves {}

theorem beginPending_moves (s : State) : Moves k base s (beginPending s) := by
  unfold beginPending
  split
  · exact (beginStatusWrite_moves _).afterSide
  · exact .refl

theorem abandonStatusWrite_moves (s : State) : Moves k base s (abandonStatusWrite s) := by
  unfold abandonStatusWrite
  split
  · exact Side.moves {}
  · split
    · exact (Move.withdraw .status).moves.afterSide
    · exact Side.moves {}

/-- A change of the queue that keeps its length (R12, R15, R20). -/
theorem queue_moves {q : List Entry} (hq : queueWf s.queue → queueWf q)
    (hl : q.length = s.queue.length) : Moves k base s { s with queue := q } :=
  (Move.queue q (fun h => hq h.1) (fun _ h => hl ▸ h) fun _ hn _ =>
    List.eq_nil_of_length_eq_zero (by rw [hl, hn]; rfl)).moves

theorem claimHead_moves (s : State) : Moves k base s (claimHead s) := by
  rcases claimHead_cases s with ⟨-, he⟩ | ⟨w, q, hc, he⟩ <;> rw [he]
  · exact Side.moves {}
  · have hq : Moves k base s { s with queue := q } :=
      queue_moves (headClaim_wf hc) (headClaim_length hc)
    exact hq.thenSide.trans (portRequest_moves _ (by simp) _)

theorem endWait_moves (s : State) : Moves k base s (endWait s) := by
  rcases endWait_cases s with he | ⟨-, -, -, he⟩ <;> rw [he]
  exact claimHead_moves s

theorem wakeEngine_moves (s : State) : Moves k base s (wakeEngine s) := by
  rcases wakeEngine_cases s with he | ⟨-, -, he⟩ <;> rw [he]
  exact claimHead_moves s

theorem startEngine_moves (s : State) : Moves k base s (startEngine s) := by
  unfold startEngine
  split
  · exact (claimHead_moves _).afterSide
  · exact .refl

theorem releaseAndStop_moves (s : State) : Moves k base s (releaseAndStop s) := by
  have hq : Moves k base s { s with queue := releaseHead s.queue } :=
    queue_moves releaseHead_wf (releaseHead_length _)
  unfold releaseAndStop
  exact hq.thenSide

theorem stopEngine_moves (s : State) : Moves k base s (stopEngine s) := by
  unfold stopEngine
  split
  · exact .refl
  · exact .refl
  · split
    · exact (Move.withdraw .drain).moves.trans (releaseAndStop_moves _)
    · exact Side.moves {}
  all_goals exact releaseAndStop_moves s

theorem startGap_moves (s : State) : Moves k base s (startGap s) :=
  (endWait_moves _).afterSide

/-! #### The descriptor unit -/

theorem advanceReading_moves (s : State) : Moves k base s (advanceReading s) := by
  unfold advanceReading
  dsimp only
  split
  · exact (portRequest_moves _ (by simp) _).afterSide
  · exact Side.moves {}

theorem beginReading_moves (s : State) : Moves k base s (beginReading s) :=
  (advanceReading_moves _).afterSide

/-- The filters of a valid descriptor are in their ranges (R80, R151). -/
theorem descriptorConfig_filtersInRange {bs : List Byte} (h : descriptorValid bs = true) :
    (descriptorConfig bs).filtersInRange := by
  have hrec : (byteAt bs 5).extractLsb' 4 4 ≠ 0#4 := by
    simp only [descriptorValid, Bool.and_eq_true, bne_iff_ne] at h
    exact h.1.1.2
  have hpos : ((byteAt bs 5).extractLsb' 4 4).toNat ≠ 0 := fun h0 =>
    hrec (BitVec.eq_of_toNat_eq h0)
  have hlt := ((byteAt bs 5).extractLsb' 4 4).isLt
  have hwarn := ((byteAt bs 5).extractLsb' 0 2).isLt
  simp only [Configuration.filtersInRange, descriptorConfig]
  omega

/-- An applied configuration whose filters are in range starts the runs at 0 (R81). -/
theorem applyConfig_monitorInv {c : Configuration} (hc : c.filtersInRange) (g : Byte) (s : State) :
    MonitorInv (applyConfig c g s) := by
  obtain ⟨h1, -, h3, -⟩ := id hc
  exact ⟨hc, h1, h3, fun _ => rfl, fun _ => rfl⟩

theorem judgeDescriptor_side (s : State) : Side s (judgeDescriptor s) := by
  unfold judgeDescriptor
  split
  · next hv =>
    exact { monitor := fun _ => applyConfig_monitorInv (descriptorConfig_filtersInRange hv) _ _ }
  · exact {}

theorem finishReading_moves (n : Nat) (s : State) : Moves k base s (finishReading n s) := by
  induction n generalizing s with
  | zero => exact .refl
  | succ n ih =>
    unfold finishReading
    split
    · have hidle : Moves k base s { judgeDescriptor s with
          descriptor := { (judgeDescriptor s).descriptor with reading := false, held := none } } :=
        (judgeDescriptor_side s).moves.thenSide
      dsimp only
      split
      · split
        · exact (hidle.trans (beginReading_moves _)).trans (ih _)
        · exact hidle
      · exact hidle
    · exact .refl

theorem generationNotice_moves (b : Byte) (s : State) : Moves k base s (generationNotice b s) := by
  unfold generationNotice
  split
  · exact Side.moves {}
  · split
    · exact (beginReading_moves s).trans (finishReading_moves 2 _)
    · exact .refl

end Operations

/-! #### The host port -/

section HostOperations

variable {k : HostTie} {base : Option PortAccess} {s t : State}

/-- What leaves the HOST request and the HOST access leaves the access free of them. -/
theorem hostFree_congr (ho : t.host.orphan = s.host.orphan) (hp : t.port.access = s.port.access)
    (hw : t.port.waiting.host = s.port.waiting.host) (h : hostFree k s) : hostFree k t := by
  cases k with
  | nothing => trivial
  | running => simpa only [hostFree, ho, hp, hw] using h
  | ended => simpa only [hostFree, hw] using h

/-- A grant while no HOST request waits is not of one. -/
theorem hostFree_decideGrant (h : hostFree k s) : hostFree k (decideGrant s) := by
  rcases decideGrant_cases s with he | ⟨r, op, -, hw, -, he⟩ <;> rw [he]
  · exact h
  · have hr (hn : s.port.waiting.host = none) : r ≠ .host := by
      rintro rfl
      rw [show s.port.waiting.get .host = s.port.waiting.host from rfl, hn] at hw
      cases hw
    rw [grant_eq]
    cases k with
    | nothing => trivial
    | running =>
      refine ⟨by rw [← h.1]; exact put_host_other _ _ (hr h.1), fun o ph hp => ?_⟩
      cases hp
      exact absurd rfl (hr h.1)
    | ended =>
      exact (put_host_other _ _ (hr h)).trans h

theorem hostFree_portRequest {r : Requester} (op : BusOp) (hr : r ≠ .host) (h : hostFree k s) :
    hostFree k (portRequest r op s) :=
  hostFree_decideGrant (hostFree_congr (s := s) rfl rfl (put_host_other _ _ hr) h)

theorem hostFree_wakeEngine (h : hostFree k s) : hostFree k (wakeEngine s) := by
  rcases wakeEngine_cases s with he | ⟨-, -, he⟩ <;> rw [he]
  · exact h
  · rcases claimHead_cases s with ⟨-, he⟩ | ⟨w, q, -, he⟩ <;> rw [he]
    · exact hostFree_congr (s := s) rfl rfl rfl h
    · exact hostFree_portRequest _ (by simp) (hostFree_congr (s := s) rfl rfl rfl h)

/-- A stage that is neither a stall nor ERR fits every access. -/
theorem StageFits.plain {st : Stage} (h : st ≠ .answered .err) (h' : ∀ j, st ≠ .stalled j) :
    StageFits k st s :=
  ⟨fun _ _ _ _ => ⟨h, h'⟩, fun _ hst => absurd hst (h' _)⟩

/-- The access in progress is this one, at some stage. -/
def hostHas (op : BusOp) (s : State) : Prop := ∃ st rel, s.host.access = some ⟨op, st, rel⟩

theorem setStage_waiting_moves {w : WaitKind} (hf : hostFree k s) :
    Moves k base s (setStage (.waiting w) s) :=
  (Move.stage _ hf (.plain (by simp) (by simp))).moves

theorem answerHost_moves {ans : Answer} (ha : ans ≠ .err) (hf : hostFree k s) :
    Moves k base s (answerHost ans s) :=
  (Move.answer _ hf (.plain (by simpa using ha) (by simp))).moves

/-- An ERR answer is to a write (R119). -/
theorem rejectWrite_moves (hw : k ≠ .nothing → ∃ a b, hostHas (.write a b) s)
    (hf : hostFree k s) : Moves k base s (rejectWrite s) := by
  have hside : Side s (countRejected s) := {}
  refine hside.moves.trans (Move.answer _ ?_ ⟨fun hk acc ha hr => ?_, by simp⟩).moves
  · exact hostFree_congr hside.orphan hside.portAccess (by rw [hside.waiting]) hf
  · obtain ⟨a, b, st, rel, hacc⟩ := hw hk
    rw [hside.access, hacc] at ha
    cases ha
    cases hr

/-- A stall is of a write; a slot stall is of one off the status line that found the queue full (R9, R40). -/
theorem beginStall_moves {j : StallKind} {a : Addr} {b : Byte} (hw : hostHas (.write a b) s)
    (hf : hostFree k s)
    (hslot : ∀ merge, j = .slot merge → 32 ≤ s.queue.length ∧ inStatusLine a = false) :
    Moves k base s (beginStall j s) := by
  unfold beginStall
  dsimp only
  split
  · exact rejectWrite_moves (fun _ => ⟨_, _, hw⟩) hf
  · obtain ⟨st, rel, hacc⟩ := hw
    refine Moves.afterSide (Move.moves (Move.stage _ (hostFree_congr (s := s) rfl rfl rfl hf)
      ⟨fun _ acc ha hr => ?_, ?_⟩))
    · rw [show s.host.access = some acc from ha] at hacc
      cases hacc
      cases hr
    · rintro merge hj
      cases hj
      refine ⟨(hslot merge rfl).1, fun acc ha => ?_⟩
      rw [show s.host.access = some acc from ha] at hacc
      cases hacc
      exact (hslot merge rfl).2

theorem acceptQueued_moves (a : Addr) (b : Byte) (hf : hostFree k s) :
    Moves k base s (acceptQueued a b s) := by
  have hans : Moves k base s (answerHost .done (countDeferred s)) :=
    (answerHost_moves (by simp)
      (hostFree_congr (s := s) (by simp) (by simp) (by simp) hf)).afterSide
  unfold acceptQueued
  dsimp only
  split
  · exact hans.trans (generationNotice_moves b _)
  · exact hans

theorem appendTaken_moves (a : Addr) (b : Byte) (hf : hostFree k s) :
    Moves k base s (appendTaken a b s) := by
  have hfree : hostFree k s.takeFree := hostFree_congr (by simp) (by simp) (by simp) hf
  rcases appendTaken_cases a b s with ⟨-, he⟩ | ⟨-, he | he⟩ <;> rw [he]
  · exact (wakeEngine_moves s).trans (acceptQueued_moves a b (hostFree_wakeEngine hf))
  · exact Moves.afterSide ((wakeEngine_moves _).trans
      (acceptQueued_moves a b (hostFree_wakeEngine hfree)))
  · exact Moves.afterSide ((acceptQueued_moves a b hfree).trans (wakeEngine_moves _))

theorem takeIntoQueue_moves {a : Addr} {b : Byte} {merge : Bool} (hf : hostFree k s)
    (hm : emptyMode s.control.mode = false) (ha : inStatusLine a = false)
    (ht : takeIntoQueue a b merge s = some t) : Moves k base s t := by
  have hwf {r : QueueAnswer} {q : List Entry} (he : presentToQueue s.queue a b merge = (r, q))
      (h : QueueInv s) : queueWf q := by
    have := presentToQueue_wf a b merge h.1 ha
    rwa [he] at this
  rcases takeIntoQueue_cases a b merge s with ⟨q, he, hq⟩ | ⟨q, he, hq⟩ | ⟨-, -, hq⟩ <;>
    rw [hq] at ht <;> cases ht
  · have hl : q.length = s.queue.length := by
      rcases presentToQueue_cases s.queue a b merge with ⟨-, hl, -⟩ | ⟨hr, -⟩ | ⟨hr, -⟩
      · rwa [he] at hl
      · rw [he] at hr; cases hr
      · rw [he] at hr; cases hr
    have hqueue : Moves k base s { s with queue := q } :=
      (Move.queue q (hwf he) (fun _ h => hl ▸ h) fun h => by rw [hm] at h; cases h).moves
    exact hqueue.thenSide.trans
      (acceptQueued_moves a b (hostFree_congr (s := s) rfl rfl rfl hf))
  · have hl : q.length = s.queue.length + 1 := by
      rcases presentToQueue_cases s.queue a b merge with ⟨hr, -⟩ | ⟨-, hl, -⟩ | ⟨hr, -⟩
      · rw [he] at hr; cases hr
      · rwa [he] at hl
      · rw [he] at hr; cases hr
    have hqueue : Moves k base s { s with queue := q } :=
      (Move.queue q (hwf he) (fun _ h => by omega) fun h => by rw [hm] at h; cases h).moves
    exact hqueue.trans (appendTaken_moves a b (hostFree_congr (s := s) rfl rfl rfl hf))

theorem queueWrite_moves {a : Addr} {b : Byte} {merge : Bool} (hw : hostHas (.write a b) s)
    (hf : hostFree k s) (hm : emptyMode s.control.mode = false) (ha : inStatusLine a = false) :
    Moves k base s (queueWrite a b merge s) := by
  unfold queueWrite
  split
  · next t ht => exact takeIntoQueue_moves hf hm ha ht
  · next hn =>
    have hfull : 32 ≤ s.queue.length := by
      rcases takeIntoQueue_cases a b merge s with ⟨q, -, hq⟩ | ⟨q, -, hq⟩ | ⟨-, hl, -⟩
      · rw [hq] at hn; cases hn
      · rw [hq] at hn; cases hn
      · exact hl
    exact Moves.afterSide (beginStall_moves (a := a) (b := b) hw
      (hostFree_congr (s := s) rfl rfl rfl hf) fun _ _ => ⟨hfull, ha⟩)

theorem hostRequest_moves {op : BusOp} (hw : hostHas op s) (hf : hostFree k s) :
    Moves k base s (hostRequest op s) := by
  obtain ⟨st, rel, hacc⟩ := hw
  have hstage : Moves k base s (setStage .onPort s) :=
    (Move.stage _ hf (.plain (by simp) (by simp))).moves
  unfold hostRequest
  dsimp only
  split
  · exact hstage
  · next ho =>
    refine (hstage.trans (Move.request .host op fun _ _ => ⟨?_, ?_, rel, ?_⟩).moves).trans
      (decideGrant_moves _)
    · exact hostFree_congr (by simp) (by simp) (by simp) hf
    · simpa using ho
    · rw [setStage_host_access, hacc]; rfl

theorem decideWindow_moves {a : Addr} {b : Byte} (hw : hostHas (.write a b) s) (hf : hostFree k s)
    (ha : inStatusLine a = false) : Moves k base s (decideWindow a b s) := by
  unfold decideWindow
  split
  · exact setStage_waiting_moves hf
  · exact hostRequest_moves hw hf
  · next h => exact queueWrite_moves hw hf (by rw [h]; rfl) ha
  · next h => exact queueWrite_moves hw hf (by rw [h]; rfl) ha
  · next h => exact queueWrite_moves hw hf (by rw [h]; rfl) ha
  · exact setStage_waiting_moves hf

theorem discardWrite_moves (hf : hostFree k s) : Moves k base s (discardWrite s) :=
  (answerHost_moves (by simp) (hostFree_congr (s := s) (by simp) (by simp) (by simp) hf)).afterSide

theorem decideRegion_moves {a : Addr} {b : Byte} (p : Policy) (merge : Bool)
    (hw : hostHas (.write a b) s) (hf : hostFree k s) (ha : inStatusLine a = false) :
    Moves k base s (decideRegion p merge a b s) := by
  unfold decideRegion
  split
  · exact setStage_waiting_moves hf
  · exact rejectWrite_moves (fun _ => ⟨_, _, hw⟩) hf
  · exact hostRequest_moves hw hf
  · exact setStage_waiting_moves hf
  · next h1 h2 h3 =>
    refine queueWrite_moves hw hf ?_ ha
    cases hm : s.control.mode <;> simp_all [emptyMode]
  · exact beginStall_moves hw hf fun _ h => by cases h
  · next h => exact queueWrite_moves hw hf (by rw [h]; rfl) ha
  · exact discardWrite_moves hf

/-- A write's disposition, the memory port free of the access (R32). -/
theorem decideWrite_moves {a : Addr} {b : Byte} (hw : hostHas (.write a b) s) (hf : hostFree k s) :
    Moves k base s (decideWrite a b s) := by
  unfold decideWrite
  split
  · exact setStage_waiting_moves hf
  · split
    · exact setStage_waiting_moves hf
    · split
      · exact rejectWrite_moves (fun _ => ⟨_, _, hw⟩) hf
      · next ha =>
        have ha' : inStatusLine a = false := by simpa using ha
        split
        · exact decideWindow_moves hw hf ha'
        · exact decideRegion_moves _ _ hw hf ha'

theorem routeRead_moves {a : Addr} (hw : hostHas (.read a) s) (hf : hostFree k s) :
    Moves k base s (routeRead a s) := by
  unfold routeRead
  split
  · exact setStage_waiting_moves hf
  · split
    · have hside : Side s (readStatus (a.extractLsb' 0 4) s).2 := by
        unfold readStatus
        dsimp only
        split <;> exact {}
      exact hside.moves.trans (answerHost_moves (by simp)
        (hostFree_congr hside.orphan hside.portAccess (by rw [hside.waiting]) hf))
    · split
      · exact answerHost_moves (by simp) hf
      · exact hostRequest_moves hw hf

/-- The route or the disposition, the memory port free of the access (R118, R124). -/
theorem routeAccess_moves (hf : hostFree k s) : Moves k base s (routeAccess s) := by
  unfold routeAccess
  split
  · exact .refl
  · next acc hacc =>
    split
    · next a hop => exact routeRead_moves ⟨acc.stage, acc.released, by rw [hacc, ← hop]⟩ hf
    · next a b hop => exact decideWrite_moves ⟨acc.stage, acc.released, by rw [hacc, ← hop]⟩ hf

theorem handOver_side (op : BusOp) (s : State) : Side s (handOver op s) := by
  unfold handOver
  split
  · split <;> exact {}
  · exact {}

theorem beginAccess_moves (op : BusOp) (ht : hostTied k s) (hn : s.host.access = none) :
    Moves k base s (beginAccess op s) := by
  have hbegin : Moves k base s
      { s with host := { s.host with access := some ⟨op, .waiting .startUp, false⟩ } } :=
    (Move.begin op hn).moves
  have hfree := hostFree_of_notOnPort (hbegin.hostTied ht) fun _ _ h => by cases h
  have hside := handOver_side op
    { s with host := { s.host with access := some ⟨op, .waiting .startUp, false⟩ } }
  exact (hbegin.trans hside.moves).trans (routeAccess_moves
    (hostFree_congr hside.orphan hside.portAccess (by rw [hside.waiting]) hfree))

theorem settleHost_moves (ht : hostTied k s) : Moves k base s (settleHost s) := by
  rcases settleHost_cases s with he | ⟨op, -, -, hn, -, he⟩ <;> rw [he]
  exact beginAccess_moves op ht hn

theorem decideAnew_moves (ht : hostTied k s) (hf : hostFree k s) : Moves k base s (decideAnew s) := by
  have hroute : Moves k base s (routeAccess s) := routeAccess_moves hf
  exact hroute.trans (settleHost_moves (hroute.hostTied ht))

/-- The pins are not among the moves' fields. -/
theorem pins_side (p : Pins) (s : State) : Side s { s with pins := p } := {}

theorem driveRead_moves (a : Addr) (ht : hostTied k s) : Moves k base s (driveRead a s) := by
  have hpins := (pins_side (s.pins.lowerRead a) s).moves (k := k) (base := base)
  exact hpins.trans (settleHost_moves (hpins.hostTied ht))

theorem driveWrite_moves (a : Addr) (b : Byte) (ht : hostTied k s) :
    Moves k base s (driveWrite a b s) := by
  have hpins := (pins_side (s.pins.lowerWrite a b) s).moves (k := k) (base := base)
  exact hpins.trans (settleHost_moves (hpins.hostTied ht))

theorem raiseLine_moves (l : HostLine) (ht : hostTied k s) : Moves k base s (raiseLine l s) := by
  have hpins := (pins_side (s.pins.raise l) s).moves (k := k) (base := base)
  unfold raiseLine
  dsimp only
  split
  · exact hpins.trans (settleHost_moves (hpins.hostTied ht))
  · next acc hacc =>
    split
    · have hleave : Moves k base s (endOrRelease acc { s with pins := s.pins.raise l }) :=
        hpins.trans (Move.moves (Move.leave acc hacc))
      exact hleave.trans (settleHost_moves (hleave.hostTied ht))
    · exact hpins

/-- A slot is freed as the head leaves: the stalled write takes it, whether it merges or is appended, or no
write is stalled (R10, R41). -/
theorem slotFreed_moves (ht : hostTied k s) :
    Moves k base s (slotFreed { s with queue := s.queue.tail }) := by
  have hnone (hn : ¬ slotWrite s ∨ 32 ≤ s.queue.tail.length) :
      Moves k base s { s with queue := s.queue.tail } :=
    (Move.queue _ (fun h => tail_wf h.1) (fun h _ => hn.resolve_left fun h' => h' h)
      fun _ h _ => by rw [h]; rfl).moves
  unfold slotFreed
  split
  · next a b merge rel hacc =>
    have hacc' : s.host.access = some ⟨.write a b, .stalled (.slot merge), rel⟩ := hacc
    have hstalled : slotWrite s := ⟨a, b, merge, rel, hacc'⟩
    have hfree : hostFree k s := hostFree_of_notOnPort ht fun op r h => by
      rw [hacc'] at h; cases h
    have hend {u : State} (hu : Moves k base s u) : Moves k base s (settleHost (stopStall u)) := by
      have hstop : Moves k base s (stopStall u) := hu.thenSide
      exact hstop.trans (settleHost_moves (hstop.hostTied ht))
    have hwf {r : QueueAnswer} {q : List Entry}
        (he : presentToQueue s.queue.tail a b merge = (r, q)) (h : QueueInv s) : queueWf q := by
      have hline : inStatusLine a = false := (slotStallQueueable_iff s).1 h.2 _ _ _ hacc'
      have := presentToQueue_wf a b merge (tail_wf h.1) hline
      rwa [he] at this
    rcases takeIntoQueue_cases a b merge { s with queue := s.queue.tail } with
      ⟨q, he, hq⟩ | ⟨q, he, hq⟩ | ⟨-, hl, hq⟩ <;> rw [hq]
    · refine hend ?_
      have hex : Moves k base s (answerHost .done { s with queue := q }) :=
        (Move.exchange q hstalled (hwf he)).moves
      have hans : Moves k base s (answerHost .done (countDeferred (countMerged
          { s with queue := q }))) := by
        refine hex.trans (Side.moves ?_)
        simp only [answerHost, countDeferred, countMerged, hacc']
        exact {}
      unfold acceptQueued
      dsimp only
      split
      · exact hans.trans (generationNotice_moves b _)
      · exact hans
    · refine hend (Moves.trans (t := { s with queue := q }) ?_
        (appendTaken_moves (s := { s with queue := q }) a b
          (hostFree_congr (s := s) rfl rfl rfl hfree)))
      have hl : q.length = s.queue.tail.length + 1 := by
        rcases presentToQueue_cases s.queue.tail a b merge with ⟨hr, -⟩ | ⟨-, hl, -⟩ | ⟨hr, -⟩
        · rw [he] at hr; cases hr
        · rwa [he] at hl
        · rw [he] at hr; cases hr
      exact (Move.queue q (hwf he) (fun _ h => by rw [hl, List.length_tail]; omega)
        fun _ _ h => absurd hstalled h).moves
    · exact hnone (.inr hl)
  · next hno =>
    exact hnone (.inl fun ⟨a, b, merge, rel, h⟩ => hno a b merge rel h)

/-- The withdrawal of an ungranted HOST request frees the memory port of it (R39). -/
theorem hostFree_withdraw (ht : hostTied k s) (hu : hostUngranted s = true) :
    hostFree k (portWithdraw .host s) := by
  cases k with
  | nothing => trivial
  | running =>
    refine ⟨rfl, fun op ph hp => ?_⟩
    rcases Bool.or_eq_true_iff.1 hu with hw | ho
    · obtain ⟨o, ho⟩ := Option.isSome_iff_exists.1 hw
      exact absurd hp ((ht.2.1 o ho).2.2 op ph)
    · exact ho
  | ended => rfl

theorem handOverAtStart_side (op : BusOp) (s : State) : Side s (handOverAtStart op s) := by
  unfold handOverAtStart
  split
  · split
    · have h := handOver_side op s.takeFree
      exact { counts := h.counts, monitor := h.monitor }
    · have h := handOver_side op s.takeFree
      exact { counts := h.counts, monitor := h.monitor }
  · exact handOver_side op s

theorem hostModeChanged_moves (ht : hostTied k s) : Moves k base s (hostModeChanged s) := by
  unfold hostModeChanged
  split
  · exact .refl
  · next acc hacc =>
    have hfree (hst : acc.stage ≠ .onPort) : hostFree k s :=
      hostFree_of_notOnPort ht fun op rel h => by
        rw [hacc] at h; cases h; exact hst rfl
    split
    · next hst =>
      split
      · have hside := handOverAtStart_side acc.op s
        have hmoves : Moves k base s (handOverAtStart acc.op s) := hside.moves
        exact hmoves.trans (decideAnew_moves (hmoves.hostTied ht)
          (hostFree_congr hside.orphan hside.portAccess (by rw [hside.waiting])
            (hfree (by rw [hst]; simp))))
      · exact .refl
    · next hst =>
      split
      · exact decideAnew_moves ht (hfree (by rw [hst]; simp))
      · exact .refl
    · split
      · split
        · next h =>
          have hw : Moves k base s (portWithdraw .host s) := (Move.withdraw .host).moves
          exact hw.trans (decideAnew_moves (hw.hostTied ht) (hostFree_withdraw ht h.2))
        · exact .refl
      · exact .refl
    · next hst =>
      split
      · next a b hop =>
        split
        · have hw : hostHas (.write a b) (stopStall s) :=
            ⟨acc.stage, acc.released, by rw [stopStall_host_access, hacc, ← hop]⟩
          exact (hostRequest_moves hw (hostFree_congr (s := s) rfl rfl rfl
            (hfree (by rw [hst]; simp)))).afterSide
        · exact .refl
      · exact .refl
    · exact .refl

theorem hostReloadEnded_moves (ht : hostTied k s) : Moves k base s (hostReloadEnded s) := by
  unfold hostReloadEnded
  split
  · next op rel hacc =>
    split
    · exact .refl
    · exact decideAnew_moves ht (hostFree_of_notOnPort ht fun o r h => by
        rw [hacc] at h; cases h)
  · exact .refl

end HostOperations

/-! #### The modes, the monitor and the sequencer -/

section ModeOperations

variable {k : HostTie} {base : Option PortAccess} {s t : State}

@[simp] theorem beginStatusWrite_control_mode (s : State) :
    (beginStatusWrite s).control.mode = s.control.mode := by
  unfold beginStatusWrite; simp

@[simp] theorem requestStatusWrite_control_mode (s : State) :
    (requestStatusWrite s).control.mode = s.control.mode := by
  rcases requestStatusWrite_cases s with ⟨-, he⟩ | ⟨-, -, he⟩ | ⟨-, -, he⟩ <;> rw [he]
  exact beginStatusWrite_control_mode s

@[simp] theorem beginPending_control_mode (s : State) :
    (beginPending s).control.mode = s.control.mode := by
  unfold beginPending
  split
  · exact beginStatusWrite_control_mode _
  · rfl

/-- An access in progress goes on through every sequence of moves (R103). -/
theorem Moves.busy {acc : PortAccess} (h : Moves k (some acc) s t)
    (hs : s.port.access = some acc) : t.port.access = some acc := by
  rcases h.keeps Move.grantedSince (.inl ⟨hs, rfl⟩ : grantedSince (some acc) s.memory s) with
    ⟨ha, -⟩ | ⟨hn, -⟩
  · exact ha
  · cases hn

theorem leaveDrain_moves (m : Mode) (s : State) : Moves k base s (leaveDrain m s) := by
  unfold leaveDrain
  split
  · exact stopEngine_moves s
  · exact .refl

/-- An entry to HOLD, with nothing granted yet (R51). -/
theorem enterHold_moves (hb : s.port.access = base) (ht : hostTied k s) :
    Moves k base s (enterHold s) := by
  have hmode : Moves k base s (setMode .hold s) := (Move.setMode _ hb (by simp [emptyMode])).moves
  have hheld : Moves k base s (awaitNone (setSafety .held (setMode .hold s))) := hmode.thenSide
  have hmark : Moves k base s (determineUnmarked (abandonStatusWrite
      (awaitNone (setSafety .held (setMode .hold s))))) :=
    (hheld.trans (abandonStatusWrite_moves _)).thenSide
  have hstop := hmark.trans (leaveDrain_moves s.control.mode _)
  exact hstop.trans (hostModeChanged_moves (hstop.hostTied ht))

/-- A status write that an entry to a mode awaits is requested, and the host port told of the change. -/
theorem requested_moves {u : State} (hu : Moves k base s u) (ht : hostTied k s) :
    Moves k base s (hostModeChanged (requestStatusWrite u)) := by
  have hreq := hu.trans (requestStatusWrite_moves u)
  exact hreq.trans (hostModeChanged_moves (hreq.hostTied ht))

theorem enterEntering_moves (hb : s.port.access = base) (ht : hostTied k s) :
    Moves k base s (enterEntering s) := by
  refine requested_moves ?_ ht
  have hmode : Moves k base s (setMode .entering (beginEpisode .forced s)) :=
    Moves.afterSide (Move.setMode _ (by simpa using hb) (by simp [emptyMode])).moves
  exact hmode.thenSide

theorem enterDrain_moves (hb : s.port.access = base) (ht : hostTied k s) :
    Moves k base s (enterDrain s) := by
  refine requested_moves ?_ ht
  have hmode : Moves k base s (setMode .drain s) := (Move.setMode _ hb (by simp [emptyMode])).moves
  exact hmode.thenSide

/-- CLOSING is entered with no entry held (R61, R65). -/
theorem enterClosing_moves (hb : s.port.access = base) (ht : hostTied k s) (hq : s.queue = []) :
    Moves k base s (enterClosing s) := by
  refine requested_moves ?_ ht
  have hmode : Moves k base s (setMode .closing s) := (Move.setMode _ hb fun _ => .inr hq).moves
  have hsafe : Moves k base s (setSafety (monitorSafety s.monitor.state) (setMode .closing s)) :=
    hmode.thenSide
  exact (hsafe.trans (leaveDrain_moves s.control.mode _)).thenSide

theorem closeToNormal_moves (hb : s.port.access = base) (ht : hostTied k s)
    (hm : emptyMode s.control.mode = true) : Moves k base s (closeToNormal s) := by
  have hmode : Moves k base s (setMode .normal (awaitNone s)) :=
    Moves.afterSide (Move.moves (Move.setMode _ (by simpa using hb) fun _ => .inl (by simpa using hm)))
  have hcause : Moves k base s (setCause .drainDone (setMode .normal (awaitNone s))) :=
    hmode.thenSide
  exact hcause.trans (hostModeChanged_moves (hcause.hostTied ht))

theorem evaluateExit_moves (hb : s.port.access = base) (ht : hostTied k s) :
    Moves k base s (evaluateExit s) := by
  unfold evaluateExit
  split
  · split
    · next hq => exact enterClosing_moves hb ht hq
    · exact enterDrain_moves hb ht
  · exact .refl

theorem beginHold_moves (r : HoldReason) (hb : s.port.access = base) (ht : hostTied k s) :
    Moves k base s (beginHold r s) := by
  have hside : Side s (beginEpisode r s) := {}
  have hep : Moves k base s (beginEpisode r s) := hside.moves
  exact hep.trans (enterHold_moves (hside.portAccess.trans hb) (hep.hostTied ht))

theorem takeTrip_moves (hb : s.port.access = base) (ht : hostTied k s) :
    Moves k base s (takeTrip s) := by
  unfold takeTrip
  split
  · exact Moves.afterSide (beginHold_moves .auto
      (s := { s with sequencer := { s.sequencer with step := .ended } }) hb
      (hostTied_congr (s := s) rfl rfl rfl rfl ht))
  · exact beginHold_moves .auto hb ht
  · exact enterHold_moves hb ht
  · exact .refl
  · exact beginHold_moves .auto hb ht
  · exact beginHold_moves .auto hb ht

theorem followMonitor_moves (s : State) : Moves k base s (followMonitor s) :=
  (requestStatusWrite_moves _).afterSide

theorem takeWarn_moves (s : State) : Moves k base s (takeWarn s) := by
  unfold takeWarn
  cases s.control.mode with
  | startup => exact followMonitor_moves s
  | normal => exact followMonitor_moves s
  | closing => exact followMonitor_moves s
  | entering => exact .refl
  | hold => exact .refl
  | drain => exact .refl

theorem takeClear_moves (hb : s.port.access = base) (ht : hostTied k s) :
    Moves k base s (takeClear s) := by
  unfold takeClear
  split
  · exact followMonitor_moves s
  · exact followMonitor_moves s
  · exact followMonitor_moves s
  · exact evaluateExit_moves hb ht
  · exact .refl
  · exact .refl

theorem takeHreqRising_moves (hb : s.port.access = base) (ht : hostTied k s) :
    Moves k base s (takeHreqRising s) := by
  have htied : hostTied k { s with control := { s.control with hreq := true } } :=
    hostTied_congr (s := s) rfl rfl rfl rfl ht
  unfold takeHreqRising
  dsimp only
  split
  · exact Moves.afterSide (enterEntering_moves hb htied)
  · exact Moves.afterSide (beginHold_moves .forced hb htied)
  · exact Moves.afterSide (beginHold_moves .forced hb htied)
  all_goals exact Side.moves {}

theorem takeHreqFalling_moves (hb : s.port.access = base) (ht : hostTied k s) :
    Moves k base s (takeHreqFalling s) :=
  Moves.afterSide (evaluateExit_moves (s := { s with control := { s.control with hreq := false } }) hb
    (hostTied_congr (s := s) rfl rfl rfl rfl ht))

theorem takeQueueEmpty_moves (hb : s.port.access = base) (ht : hostTied k s) :
    Moves k base s (takeQueueEmpty s) := by
  unfold takeQueueEmpty
  dsimp only
  split
  · next h => exact Moves.afterSide (enterClosing_moves
      (s := { s with queueEmptyReports := s.queueEmptyReports - 1 }) hb
      (hostTied_congr (s := s) rfl rfl rfl rfl ht) h.2)
  · exact Side.moves {}

theorem takeSupplyEvent_moves (e : SupplyEvent) (hb : s.port.access = base) (ht : hostTied k s) :
    Moves k base s (takeSupplyEvent e s) := by
  unfold takeSupplyEvent
  split
  · exact .refl
  · exact takeWarn_moves s
  · exact takeClear_moves hb ht
  · exact takeTrip_moves hb ht
  · exact takeTrip_moves hb ht

/-- The monitor's ranges, with the monitor and the configuration apart (R69, R80). -/
def monitorFits (c : Configuration) (m : SupplyMonitor) : Prop :=
  c.filtersInRange ∧ m.warnRun < c.warnFilter ∧ m.recoveryRun < c.recoveryFilter ∧
    (m.state = .warned → m.warnRun = 0) ∧ (m.state = .good → m.recoveryRun = 0)

theorem sampleGood_fits {c : Configuration} {m : SupplyMonitor} (cls : SupplyClass)
    (h : monitorFits c m) (hg : m.state = .good) :
    monitorFits c (sampleGood c.warnFilter cls m).1 := by
  obtain ⟨hc, hw, hr, -, hzero⟩ := h
  have hrec := hzero hg
  have hpos : 0 < c.warnFilter := hc.1
  unfold sampleGood
  split
  · exact ⟨hc, hpos, hr, fun _ => rfl, hzero⟩
  · split
    · next hlt => exact ⟨hc, hlt, hr, fun he => by simp [hg] at he, hzero⟩
    · exact ⟨hc, hpos, hr, fun _ => rfl, fun he => by cases he⟩
  · exact ⟨hc, hpos, hr, fun _ => rfl, fun he => by cases he⟩

theorem sampleWarned_fits {c : Configuration} {m : SupplyMonitor} (cls : SupplyClass)
    (h : monitorFits c m) (hg : m.state = .warned) :
    monitorFits c (sampleWarned c.recoveryFilter cls m).1 := by
  obtain ⟨hc, hw, hr, hzero, -⟩ := h
  have hpos : 0 < c.recoveryFilter := hc.2.2.1
  unfold sampleWarned
  split
  · split
    · next hlt => exact ⟨hc, hw, hlt, hzero, fun he => by simp [hg] at he⟩
    · exact ⟨hc, hw, hpos, fun _ => hzero hg, fun _ => rfl⟩
  · exact ⟨hc, hw, hpos, hzero, fun _ => rfl⟩
  · exact ⟨hc, hw, hpos, hzero, fun _ => rfl⟩

/-- A sample keeps the runs below the filters they are compared with (R73, R75). -/
theorem sampleFilter_fits {c : Configuration} {m : SupplyMonitor} (cls : SupplyClass)
    (h : monitorFits c m) : monitorFits c (sampleFilter c cls m).1 := by
  unfold sampleFilter
  split
  · next hg => exact sampleGood_fits cls h hg
  · next hg => exact sampleWarned_fits cls h hg

/-- The first sample leaves both runs 0 (R72). -/
theorem sampleFirst_fits {c : Configuration} {m : SupplyMonitor} (cls : SupplyClass)
    (h : monitorFits c m) : monitorFits c (sampleFirst cls m).1 := by
  obtain ⟨hc, -⟩ := h
  have hw : 0 < c.warnFilter := hc.1
  have hr : 0 < c.recoveryFilter := hc.2.2.1
  unfold sampleFirst
  split <;> exact ⟨hc, hw, hr, fun _ => rfl, fun _ => rfl⟩

theorem engineClass_side (c : SupplyClass) (s : State) : Side s (engineClass c s) where
  engine h := by
    unfold engineClass
    dsimp only
    split
    · exact ⟨Nat.le_refl 7, h.2⟩
    · exact h

theorem measure_side {f : SupplyClass → SupplyMonitor → SupplyMonitor × SupplyEvent}
    (hf : ∀ cls, monitorFits s.config s.monitor → monitorFits s.config (f cls s.monitor).1) :
    Side s (measure f s).2 := by
  have hside := engineClass_side (sampleClass s)
    { s with monitor := (f (sampleClass s) s.monitor).1 }
  unfold measure
  dsimp only
  refine { engine := fun h => ?_, monitor := fun h => ?_ }
  · simpa [EngineInv] using hside.engine h
  · simpa [MonitorInv, monitorFits, State.config] using hf (sampleClass s) h

theorem takeSample_moves (hb : s.port.access = base) (ht : hostTied k s) :
    Moves k base s (takeSample s) := by
  have hside : Side s (measure (sampleFilter s.config) s).2 :=
    measure_side fun cls h => sampleFilter_fits cls h
  have hm : Moves k base s (measure (sampleFilter s.config) s).2 := hside.moves
  exact hm.trans (takeSupplyEvent_moves _ (hside.portAccess.trans hb) (hm.hostTied ht))

theorem reaim_side (m : Mode) (s : State) : Side s (reaim m s) := by
  unfold reaim
  split
  · exact {}
  · split <;> exact {}

theorem afterEvent_moves (m : Mode) (s : State) : Moves k base s (afterEvent m s) := by
  unfold afterEvent
  split
  · exact .refl
  · exact Moves.afterSide (decideGrant_moves _) (reaim_side m s)

theorem assessLine_side (bs : List Byte) (q : Sequencer) (s : State) :
    Side s (assessLine bs { s with sequencer := q }) := by
  unfold assessLine
  split
  · dsimp only
    split <;> exact {}
  · exact {}

theorem default_filtersInRange : Configuration.default.filtersInRange := by decide

theorem applyAtStart_side (s : State) : Side s (applyAtStart s) := by
  unfold applyAtStart
  dsimp only
  split
  · next hv =>
    exact { monitor := fun _ => applyConfig_monitorInv (descriptorConfig_filtersInRange hv) _ _ }
  · exact { monitor := fun _ => applyConfig_monitorInv default_filtersInRange 0#8 _ }

theorem beginStartWrite_moves (s : State) : Moves k base s (beginStartWrite s) :=
  (followMonitor_moves _).afterSide

theorem finishStartLoad_moves (hb : s.port.access = base) (ht : hostTied k s) :
    Moves k base s (finishStartLoad s) := by
  have happly := applyAtStart_side s
  have hmeas : Side (applyAtStart s) (measure sampleFirst (applyAtStart s)).2 :=
    measure_side fun cls h => sampleFirst_fits cls h
  have hm : Moves k base s (measure sampleFirst (applyAtStart s)).2 :=
    happly.moves.trans hmeas.moves
  have hb' := (hmeas.portAccess.trans happly.portAccess).trans hb
  unfold finishStartLoad
  dsimp only
  split
  · exact hm.trans (takeTrip_moves hb' (hm.hostTied ht))
  · exact hm.trans (takeTrip_moves hb' (hm.hostTied ht))
  all_goals exact hm.trans (beginStartWrite_moves _)

/-- A reading whose bytes are not all taken ends in a LOAD request, and is not complete (R157). -/
theorem advanceReading_cases (s : State) :
    (readingComplete (advanceReading s) = false) ∨
      advanceReading s = { s with descriptor := { s.descriptor with
        bytes := gatherHeld s.queue descriptorBase descriptorLength descriptorLength
          s.descriptor.bytes } } := by
  unfold advanceReading
  dsimp only
  split
  · next hlt =>
    left
    simp only [readingComplete, portRequest_frame, Bool.and_eq_false_iff, beq_eq_false_iff_ne]
    exact .inr (by omega)
  · exact .inr rfl

/-- The start-up load goes on with a request or ends, not both (R164). -/
theorem continueStartLoad_moves (hb : s.port.access = base) (ht : hostTied k s) :
    Moves k base s (continueStartLoad s) := by
  unfold continueStartLoad
  dsimp only
  split
  · next hc =>
    rcases advanceReading_cases s with hn | he
    · rw [hn] at hc; cases hc
    · rw [he]
      exact Moves.afterSide (finishStartLoad_moves hb (hostTied_congr (s := s) rfl rfl rfl rfl ht))
  · exact advanceReading_moves s

theorem continueStatusRead_moves (hb : s.port.access = base) (ht : hostTied k s) :
    Moves k base s (continueStatusRead s) := by
  unfold continueStatusRead
  dsimp only
  split
  · exact (portRequest_moves _ (by simp) _).afterSide
  · generalize gatherHeld s.queue statusBase statusLength statusLength s.sequencer.bytes = bs
    have hside := assessLine_side bs { s.sequencer with bytes := bs } s
    refine Moves.trans hside.moves (Moves.afterSide (continueStartLoad_moves ?_ ?_))
    · exact hside.portAccess.trans hb
    · exact hostTied_congr (s := s) hside.access hside.orphan hside.portAccess
        (congrArg Waiting.host hside.waiting) ht

/-- The choice of the first mode, from STARTUP (R168). -/
theorem chooseFirstMode_moves (hb : s.port.access = base) (ht : hostTied k s)
    (hm : emptyMode s.control.mode = true) : Moves k base s (chooseFirstMode s) := by
  have htied : hostTied k { s with sequencer := { s.sequencer with step := .ended } } :=
    hostTied_congr (s := s) rfl rfl rfl rfl ht
  unfold chooseFirstMode
  dsimp only
  split
  · exact Moves.afterSide (enterEntering_moves hb htied)
  · have hmode : Moves k base s
        (setMode .normal { s with sequencer := { s.sequencer with step := .ended } }) :=
      Moves.afterSide (Move.moves (Move.setMode _ hb fun _ => .inl hm))
    exact hmode.trans (hostModeChanged_moves (hmode.hostTied ht))

end ModeOperations

/-! #### The completions -/

section CompletionOperations

variable {k : HostTie} {base : Option PortAccess} {s t : State} {acc : PortAccess}

/-- The awaited write's end moves the mode while its own access is still in progress (R49, R113). -/
theorem awaitedEnded_moves (w : AwaitedKind) (hb : s.port.access = some acc) (ht : hostTied k s) :
    Moves k (some acc) s (awaitedEnded w s) := by
  have hnone : Moves k (some acc) s (awaitNone s) := Side.moves {}
  have htied := hnone.hostTied ht
  have hb' : (awaitNone s).port.access = some acc := hb
  unfold awaitedEnded
  dsimp only
  split
  · have hhold := hnone.trans (enterHold_moves hb' htied)
    exact hhold.trans (evaluateExit_moves (hhold.busy hb) (hhold.hostTied ht))
  · exact hnone.trans (startEngine_moves _)
  · next hm => exact hnone.trans (closeToNormal_moves hb' htied (by simp [hm, emptyMode]))
  · exact hnone

theorem engineStatusEnded_moves (s : State) : Moves k base s (engineStatusEnded s) :=
  (endWait_moves _).afterSide

theorem reportEnd_moves (hb : s.port.access = some acc) (ht : hostTied k s) :
    Moves k (some acc) s (reportEnd s) := by
  unfold reportEnd
  dsimp only
  have hcontrol : Moves k (some acc) s (match s.control.awaited with
      | some ⟨w, true⟩ => awaitedEnded w s
      | _ => s) := by
    split
    · exact awaitedEnded_moves _ hb ht
    · exact .refl
  split
  · exact hcontrol.trans (engineStatusEnded_moves _)
  · exact hcontrol

/-- In STARTUP the controller waits for no write that would move the mode (R167). -/
theorem reportEnd_startup (hm : s.control.mode = .startup) :
    (reportEnd s).control.mode = .startup := by
  have hend (w : AwaitedKind) : (awaitedEnded w s).control.mode = .startup := by
    cases w <;> simp [awaitedEnded, hm]
  unfold reportEnd
  dsimp only
  split
  · split
    · simpa using hend _
    · simpa using hm
  · split
    · exact hend _
    · exact hm

theorem statusWriteEnded_moves (hb : s.port.access = some acc) (ht : hostTied k s) :
    Moves k (some acc) s (statusWriteEnded s) := by
  have hidle : Moves k (some acc) s (writerIdle s) := Side.moves {}
  have hreport := hidle.trans (reportEnd_moves (s := writerIdle s) (by simpa using hb)
    (hidle.hostTied ht))
  have hpend := hreport.trans (beginPending_moves _)
  unfold statusWriteEnded
  dsimp only
  split
  · next h =>
    refine hpend.trans (chooseFirstMode_moves (hpend.busy hb) (hpend.hostTied ht) ?_)
    rw [beginPending_control_mode, reportEnd_startup (by simpa using h.1)]
    rfl
  · exact hpend

theorem statusCompletion_moves (c : Completion) (hb : s.port.access = some acc)
    (ht : hostTied k s) : Moves k (some acc) s (statusCompletion c s) := by
  have hended {u : State} (hu : Side s u) : Moves k (some acc) s (statusWriteEnded u) :=
    Moves.afterSide (statusWriteEnded_moves (hu.portAccess.trans hb)
      (hostTied_congr hu.access hu.orphan hu.portAccess (by rw [hu.waiting]) ht)) hu
  unfold statusCompletion
  split
  · exact .refl
  · split
    · split
      · exact Moves.afterSide (beginPending_moves _)
      · exact Moves.afterSide (beginPending_moves _)
    · split
      · exact hended {}
      · split
        · exact hended { counts := by simp [recordDone] }
        · exact (portRequest_moves _ (by simp) _).afterSide

theorem reloadByte_moves (b : Byte) (ht : hostTied k s) : Moves k base s (reloadByte b s) := by
  have hread := Moves.afterSide (k := k) (base := base) (s := s) ((advanceReading_moves
    { s with descriptor := { s.descriptor with bytes := s.descriptor.bytes ++ [b] } }).trans
    (finishReading_moves 2 _))
  exact hread.trans (hostReloadEnded_moves (hread.hostTied ht))

theorem loadCompletion_moves (b : Byte) (hb : s.port.access = base) (ht : hostTied k s) :
    Moves k base s (loadCompletion b s) := by
  unfold loadCompletion
  split
  · exact Moves.afterSide (continueStatusRead_moves
      (s := { s with sequencer := { s.sequencer with bytes := s.sequencer.bytes ++ [b] } }) hb
      (hostTied_congr (s := s) rfl rfl rfl rfl ht))
  · exact Moves.afterSide (continueStartLoad_moves
      (s := { s with descriptor := { s.descriptor with bytes := s.descriptor.bytes ++ [b] } }) hb
      (hostTied_congr (s := s) rfl rfl rfl rfl ht))
  all_goals
    split
    · exact reloadByte_moves b ht
    · exact .refl

theorem writeTakesEffect_moves (a : Addr) (b : Byte) (s : State) :
    Moves k base s (writeTakesEffect a b s) := by
  unfold writeTakesEffect
  split
  · exact Side.moves {}
  · split
    · exact generationNotice_moves b s
    · exact .refl

/-- What the tie says of a HOST access as its completion is delivered: its end is at hand, and with its host
it is the access in progress, nothing else of which waits (R117). -/
structure HostEnds (k : HostTie) (op : BusOp) (s : State) : Prop where
  tie : k ≠ .running
  free : s.host.orphan = false → hostFree k s
  own : s.host.orphan = false → k ≠ .nothing → hostHas op s

/-- What the completion of a cancelled access does but for the host port (Table 7-4). -/
def orphanEffect (op : BusOp) (c : Completion) (s : State) : State :=
  match op, c with
  | .write a b, .done => writeTakesEffect a b s
  | .write _ _, .fault => setCause .memFault s
  | _, _ => s

/-- The host port after a cancelled access has ended: a request held back until now is made (R129). -/
def orphanGone (s : State) : State :=
  match s.host.access with
  | some ⟨op, .onPort, _⟩ => portRequest .host op { s with host := { s.host with orphan := false } }
  | _ => { s with host := { s.host with orphan := false } }

theorem orphanCompletion_eq (op : BusOp) (c : Completion) (s : State) :
    orphanCompletion op c s = orphanGone (orphanEffect op c s) := by
  cases op <;> cases c <;> rfl

theorem orphanEffect_moves (op : BusOp) (c : Completion) (s : State) :
    Moves k base s (orphanEffect op c s) := by
  unfold orphanEffect
  split
  · exact writeTakesEffect_moves _ _ s
  · exact Side.moves {}
  · exact .refl

@[simp] theorem orphanEffect_host (op : BusOp) (c : Completion) (s : State) :
    (orphanEffect op c s).host = s.host := by
  unfold orphanEffect
  split <;> simp

theorem orphanGone_moves (hk : k ≠ .running) (ho : s.host.orphan = true) (ht : hostTied k s) :
    Moves k base s (orphanGone s) := by
  have hend : Moves k base s { s with host := { s.host with orphan := false } } :=
    (Move.orphanEnd hk).moves
  have hwait : hostFree k { s with host := { s.host with orphan := false } } := by
    cases k with
    | nothing => trivial
    | running => exact absurd rfl hk
    | ended =>
      show s.port.waiting.host = none
      by_contra hw
      obtain ⟨o, hop⟩ := Option.ne_none_iff_exists'.1 hw
      have := (ht.2 o hop).1
      rw [ho] at this
      cases this
  unfold orphanGone
  split
  · next o rel hacc =>
    exact (hend.trans (Move.moves (Move.request .host o fun _ _ => ⟨hwait, rfl, rel, hacc⟩))).trans
      (decideGrant_moves _)
  · exact hend

theorem hostCompletion_moves {op : BusOp} (c : Completion) (he : HostEnds k op s)
    (ht : hostTied k s) : Moves k base s (hostCompletion op c s) := by
  have hsettle {u : State} (hu : Moves k base s u) : Moves k base s (settleHost u) :=
    hu.trans (settleHost_moves (hu.hostTied ht))
  unfold hostCompletion
  split
  · next ho =>
    have heffect : Moves k base s (orphanEffect op c s) := orphanEffect_moves op c s
    rw [orphanCompletion_eq]
    exact heffect.trans (orphanGone_moves he.tie (by simpa using ho) (heffect.hostTied ht))
  · next ho =>
    have ho' : s.host.orphan = false := by simpa using ho
    split
    · exact hsettle (answerHost_moves (by simp) (he.free ho'))
    · exact hsettle ((answerHost_moves (by simp) (he.free ho')).trans (writeTakesEffect_moves _ _ _))
    · next a b =>
      exact hsettle (Moves.afterSide (rejectWrite_moves (fun hn => ⟨a, b, he.own ho' hn⟩)
        (hostFree_congr (s := s) rfl rfl rfl (he.free ho'))))
    · exact .refl

/-- A written report frees a slot where the entry leaves (R16, R17, R10). -/
theorem writtenReport_moves (offset : Nat) (ht : hostTied k s) :
    Moves k base s (if (writtenReport s.queue offset).1
      then slotFreed { s with queue := (writtenReport s.queue offset).2 }
      else { s with queue := (writtenReport s.queue offset).2 }) := by
  have hwf : queueWf s.queue → queueWf (writtenReport s.queue offset).2 := writtenReport_wf offset
  rcases writtenReport_cases s.queue offset with ⟨hq, he⟩ | ⟨-, he⟩ | ⟨line, bytes, st, rest, hq, -, he⟩
  · rw [he]
    exact queue_moves (by rw [he] at hwf; exact hwf) (by rw [hq])
  · rw [he]
    exact slotFreed_moves ht
  · rw [he] at hwf ⊢
    exact queue_moves hwf (by rw [hq]; rfl)

theorem reportWritten_moves (w : DrainWrite) (awaits : Bool) (ht : hostTied k s) :
    Moves k base s (reportWritten w awaits s) := by
  have hreport := writtenReport_moves (k := k) (base := base) (offsetOf w.addr) ht
  unfold reportWritten reportIfEmpty
  dsimp only
  revert hreport
  generalize (if (writtenReport s.queue (offsetOf w.addr)).1
    then slotFreed { s with queue := (writtenReport s.queue (offsetOf w.addr)).2 }
    else { s with queue := (writtenReport s.queue (offsetOf w.addr)).2 }) = u
  intro hu
  have hfence : Moves k base s (if w.fence = true then
      requestStatusWrite (completeFence w.byte
        (if awaits then { u with engine := { u.engine with awaited := .requested } } else u))
      else u) := by
    split
    · refine (hu.trans ?_).trans (requestStatusWrite_moves _)
      split <;> exact Side.moves {}
    · exact hu
  split
  · exact hfence.thenSide
  · exact hfence

theorem drainDone_moves (w : DrainWrite) (ht : hostTied k s) : Moves k base s (drainDone w s) :=
  Moves.afterSide ((reportWritten_moves w true (s := { s with engine :=
    { s.engine with attempts := 0 } }) (hostTied_congr (s := s) rfl rfl rfl rfl ht)).trans
    (startGap_moves _))

theorem dropEntry_moves (ht : hostTied k s) : Moves k base s (dropEntry s) := by
  have hslot : Moves k base s (slotFreed { s with queue := dropHead s.queue }) := slotFreed_moves ht
  unfold dropEntry reportIfEmpty
  dsimp only
  refine (hslot.trans ?_).trans (requestStatusWrite_moves _)
  split <;> exact Side.moves {}

theorem drainFault_moves (ht : hostTied k s) : Moves k base s (drainFault s) := by
  have hcause : Moves k base s (setCause .memFault s) := Side.moves {}
  unfold drainFault
  dsimp only
  split
  · next hlt =>
    refine Side.moves { engine := fun h => ⟨h.1, ?_⟩ }
    show s.engine.attempts + 1 ≤ 2
    omega
  · exact hcause.trans (dropEntry_moves (hcause.hostTied ht))

theorem stoppingCompletion_moves (w : DrainWrite) (c : Completion) (ht : hostTied k s) :
    Moves k base s (stoppingCompletion w c s) := by
  refine Moves.trans ?_ (releaseAndStop_moves _)
  split
  · exact Side.moves {}
  · exact reportWritten_moves w false ht

theorem drainCompletion_moves (c : Completion) (ht : hostTied k s) :
    Moves k base s (drainCompletion c s) := by
  unfold drainCompletion
  split
  · split
    · exact drainFault_moves ht
    · exact drainDone_moves _ ht
  · exact stoppingCompletion_moves _ c ht
  · exact .refl

/-- A completion is delivered while its access is still in progress (R113). -/
theorem deliver_moves (c : Completion) (hb : s.port.access = some acc) (ht : hostTied k s)
    (he : acc.requester = .host → HostEnds k acc.op s) :
    Moves k (some acc) s (deliver acc c s) := by
  unfold deliver
  split
  · exact statusCompletion_moves c hb ht
  · split
    · exact loadCompletion_moves _ hb ht
    · exact .refl
  · next hr => exact hostCompletion_moves c (he hr) ht
  · exact drainCompletion_moves c ht

/-! #### The end of an access -/

/-- Waiting requests are put aside as if withdrawn. -/
theorem hideRequests_moves (rs : List Requester) (s : State) :
    Moves k base s { s with port := { s.port with waiting := hideRequests s.port.waiting rs } } := by
  induction rs generalizing s with
  | nil => exact .refl
  | cons r rs ih => exact (Move.withdraw r).moves.trans (ih (portWithdraw r s))

/-- A HOST request that is put aside does not wait. -/
theorem hideRequests_host {rs : List Requester} {w : Waiting}
    (h : .host ∈ rs ∨ w.host = none) : (hideRequests w rs).host = none := by
  induction rs generalizing w with
  | nil => exact h.resolve_left (by simp)
  | cons r rs ih =>
    refine ih ?_
    by_cases hr : r = .host
    · subst hr; exact .inr rfl
    · rw [put_host_other _ _ hr]
      exact h.imp_left fun hm => (List.mem_cons.1 hm).resolve_left (Ne.symm hr)

theorem lateRequests_sublist (rs : List Requester) (n : Nat) : (lateRequests rs n).Sublist rs := by
  induction rs generalizing n with
  | nil => exact .slnil
  | cons r rs ih =>
    unfold lateRequests
    split
    · exact (ih _).cons_cons r
    · exact (ih _).cons r

/-- Requests put aside arrive, a HOST request as that of the access in progress (R104, R117). -/
theorem arriveLate_moves (w : Waiting) (rs : List Requester) (s : State) (hnd : rs.Nodup)
    (hh : .host ∈ rs → k ≠ .nothing → ∀ op, w.host = some op →
      hostFree k s ∧ s.host.orphan = false ∧ ∃ rel, s.host.access = some ⟨op, .onPort, rel⟩) :
    Moves k base s (arriveLate w rs s) := by
  induction rs generalizing s with
  | nil => exact .refl
  | cons r rs ih =>
    obtain ⟨hr, hrest⟩ := List.nodup_cons.1 hnd
    unfold arriveLate
    split
    · next op hop =>
      by_cases hhost : r = .host
      · subst hhost
        refine Moves.trans (Moves.trans (Move.request .host op fun _ hk =>
          hh List.mem_cons_self hk op hop).moves (decideGrant_moves _)) (ih _ hrest fun hm => ?_)
        exact absurd hm hr
      · refine (portRequest_moves op hhost s).trans (ih _ hrest fun hm hk o ho => ?_)
        obtain ⟨hf, hor, hacc⟩ := hh (List.mem_cons_of_mem _ hm) hk o ho
        exact ⟨hostFree_portRequest op hhost hf, by simpa using hor, by simpa using hacc⟩
    · exact ih s hrest fun hm => hh (List.mem_cons_of_mem _ hm)

/-- The decision at an access's end, the port IDLE (R106). -/
theorem decideAtEnd_moves (own : Requester) (before : Waiting) (hn : s.port.access = none)
    (ht : hostTied k s) : Moves k base s (decideAtEnd own before s) := by
  unfold decideAtEnd
  dsimp only
  split
  · exact decideGrant_moves s
  · generalize hlate : lateRequests (newRequests own before s.port.waiting) s.freeIndex = late
    have hhide : Moves k base s { s with
        port := { s.port with waiting := hideRequests s.port.waiting late }
        freeIndex := s.freeIndex + (newRequests own before s.port.waiting).length } :=
      (hideRequests_moves late s).thenSide
    refine (hhide.trans (decideGrant_moves _)).trans (arriveLate_moves _ _ _ ?_ ?_)
    · have hall : (newRequests own before s.port.waiting).Nodup :=
        List.Nodup.filter _ (by decide)
      exact hlate ▸ hall.sublist (lateRequests_sublist _ _)
    · intro hm hk op hop
      have hask : s.host.orphan = false ∧ ∃ rel, s.host.access = some ⟨op, .onPort, rel⟩ := by
        cases k with
        | nothing => exact absurd rfl hk
        | running => exact ⟨(ht.2.1 op hop).1, (ht.2.1 op hop).2.1⟩
        | ended => exact ht.2 op hop
      refine ⟨hostFree_decideGrant ?_, by simpa using hask.1, by simpa using hask.2⟩
      have hhidden := hideRequests_host (w := s.port.waiting) (.inl hm)
      cases k with
      | nothing => trivial
      | running =>
        exact ⟨hhidden, fun o ph hp => by
          rw [show s.port.access = some ⟨.host, o, ph⟩ from hp] at hn; cases hn⟩
      | ended => exact hhidden

end CompletionOperations

/-! ### What a command does -/

section Commands

variable {k : HostTie} {base : Option PortAccess} {s t : State} {acc : PortAccess}

/-- The memory port with its access taken away, as at the end of one (R106). -/
def idlePort (s : State) : State := { s with port := { s.port with access := none } }

/-- The state in which a completion is delivered: the timer stopped and the memory as the end leaves it. -/
def completed (acc : PortAccess) (c : Completion) (s : State) : State :=
  leaveMemory acc c { s with port := { s.port with timeout := none } }

theorem endAccess_eq (acc : PortAccess) (c : Completion) (s : State) :
    endAccess acc c s = afterEvent s.control.mode (decideAtEnd acc.requester s.port.waiting
      (idlePort (deliver acc c (completed acc c s)))) := rfl

@[simp] theorem completed_frame (acc : PortAccess) (c : Completion) (s : State) :
    (completed acc c s).pending = s.pending ∧
    (completed acc c s).porAsserted = s.porAsserted ∧
    (completed acc c s).pins = s.pins ∧
    (completed acc c s).host = s.host ∧
    (completed acc c s).queue = s.queue ∧
    (completed acc c s).control = s.control ∧
    (completed acc c s).queueEmptyReports = s.queueEmptyReports ∧
    (completed acc c s).monitor = s.monitor ∧
    (completed acc c s).engine = s.engine ∧
    (completed acc c s).port = { s.port with timeout := none } ∧
    (completed acc c s).status = s.status ∧
    (completed acc c s).writer = s.writer ∧
    (completed acc c s).descriptor = s.descriptor ∧
    (completed acc c s).sequencer = s.sequencer ∧
    (completed acc c s).now = s.now := by
  unfold completed; simp

/-- What follows the delivery of a completion, the port IDLE (R106, R71). -/
theorem afterDelivery_moves (own : Requester) (before : Waiting) (m : Mode) (hn : s.port.access = none)
    (ht : hostTied k s) : Moves k base s (afterEvent m (decideAtEnd own before s)) :=
  (decideAtEnd_moves own before hn ht).trans (afterEvent_moves m _)

/-- The commands of the power-on reset (R170, R161). -/
def resets (c : Instr) : Prop :=
  c = .porAssert ∨ ∃ hreq rst mrdy vsen, c = .porRelease hreq rst mrdy vsen

/-- What a command does to the moves' fields: a sequence of moves; a phase of the access in progress gone
through; its end; or the power-on reset and what follows it. -/
inductive ExecKind (c : Instr) (s t : State) : Prop
  | moves (h : ∀ k, hostTied k s → Moves k s.port.access s t)
  | phase {u : State} {acc : PortAccess} (p : Phase) (hu : Side s u)
      (hb : s.port.access = some acc) (ht : t = setPhase acc p u)
  | strobe {u : State} {acc : PortAccess} (busy : Bool) (hu : Side s u)
      (hb : s.port.access = some acc) (ht : t = enterStrobe acc busy u)
  | ended {u : State} {acc : PortAccess} (d : Completion) (hu : Side s u)
      (hb : s.port.access = some acc) (ht : t = endAccess acc d u)
  | reset {u : State} (hc : resets c) (hu : u = cutOffWrite s ∨ u.memory = s.memory)
      (h : ∀ k, Moves k none (powerOn u) t)

theorem hostTied_powerOn (k : HostTie) (s : State) : hostTied k (powerOn s) := by
  have hr : readUnstalled (powerOn s) := fun acc h => by cases h
  cases k with
  | nothing => trivial
  | running =>
    exact ⟨hr, fun op h => absurd h (Option.some_ne_none op).symm,
      fun op ph h => absurd h (Option.some_ne_none _).symm⟩
  | ended => exact ⟨hr, fun op h => absurd h (Option.some_ne_none op).symm⟩

theorem releaseReset_moves (s : State) : Moves k none (powerOn s) (releaseReset s) := by
  have hside : Side (powerOn s) { powerOn s with
      porAsserted := false
      control := { (powerOn s).control with hreq := s.pins.hreq }
      host := { (powerOn s).host with rstHigh := s.pins.rst } } := {}
  have hread := hside.moves.trans (continueStatusRead_moves (k := k) hside.portAccess
    (hside.moves (base := none) |>.hostTied (hostTied_powerOn k s)))
  exact hread.trans (settleHost_moves (hread.hostTied (hostTied_powerOn k s)))

theorem execWriteStrobeEnd_kind {m : Bool} {c : Instr} (h : execWriteStrobeEnd m s = .next t) :
    ExecKind c s t := by
  unfold execWriteStrobeEnd at h
  split at h <;> cases h
  · next r op late hb =>
    have hu := pins_side { s.pins with mrdy := m } s
    unfold endWriteStrobe
    split
    · exact .ended _ hu hb rfl
    · exact .phase _ hu hb rfl
    · exact .ended _ hu hb rfl
  · exact .moves fun _ _ => .refl

theorem execMrdyReady_kind {c : Instr} (h : execMrdyReady s = .next t) : ExecKind c s t := by
  have hu := pins_side { s.pins with mrdy := true } s
  unfold execMrdyReady at h
  dsimp only at h
  split at h <;> cases h
  · next hb => exact .strobe _ hu hb rfl
  · next hb => exact .ended _ hu hb rfl
  · exact .moves fun _ _ => hu.moves

theorem execWriteTimeout_kind {c : Instr} (h : execWriteTimeout s = .next t) : ExecKind c s t := by
  unfold execWriteTimeout at h
  split at h <;> cases h
  · next due acc hd hb =>
    have hu : Side s { s.reach due with port := { (s.reach due).port with timeout := none } } := {}
    unfold reachTimeout
    split
    · exact .strobe _ hu hb rfl
    · exact .ended _ hu hb rfl
    · exact .ended _ hu hb rfl
    · exact .phase _ hu hb rfl
    · exact .moves fun _ _ => hu.moves
  · exact .moves fun _ _ => .refl

theorem driveByte_side (a : Addr) (busy : Bool) (s : State) : Side s (driveByte a busy s).2 := by
  unfold driveByte
  split <;> exact {}

theorem execReadStrobeEnd_kind {c : Instr} (h : execReadStrobeEnd s = .next t) : ExecKind c s t := by
  unfold execReadStrobeEnd at h
  split at h <;> cases h
  · next r op busy hb => exact .ended _ (driveByte_side _ _ s) hb rfl
  · exact .moves fun _ _ => .refl

/-- A timer's expiry moves the clock first (log 3). -/
theorem Moves.afterReach {due : Nat} (h : Moves k base (s.reach due) t) : Moves k base s t := h.afterSide

theorem execSample_moves {v : Nat} (h : execSample v s = .next t) (ht : hostTied k s) :
    Moves k s.port.access s t := by
  unfold execSample at h
  dsimp only at h
  split at h <;> cases h
  · exact Side.moves {}
  · next tm _ =>
    exact Moves.afterSide (Moves.trans (takeSample_moves
      (s := State.reach { s with pins := { s.pins with vsen := v } } tm.due) rfl
      (hostTied_congr (s := s) rfl rfl rfl rfl ht)) (afterEvent_moves _ _))

/-- A stalled access is a write, and has nothing on the memory port (R119, R40). -/
theorem stalled_write (h : s.stalled = true) (hr : readUnstalled s) :
    ∃ a b, hostHas (.write a b) s := by
  unfold State.stalled at h
  split at h
  · next op j rel hacc =>
    cases op with
    | read a => exact absurd rfl ((hr _ hacc rfl).2 j)
    | write a b => exact ⟨a, b, _, _, hacc⟩
  · cases h

theorem stalled_notOnPort (h : s.stalled = true) (op : BusOp) (rel : Bool) :
    s.host.access ≠ some ⟨op, .onPort, rel⟩ := by
  intro hacc
  simp [State.stalled, hacc] at h

theorem execStallExpiry_moves (h : execStallExpiry s = .next t) (ht : hostTied k s) :
    Moves k base s t := by
  unfold execStallExpiry at h
  split at h <;> cases h
  · exact .refl
  · next due hd =>
    have hstop : Side s (stopStall (s.reach due)) := {}
    split
    · next hst =>
      have hreject : Moves k base s (rejectWrite (stopStall (s.reach due))) := by
        refine hstop.moves.trans (rejectWrite_moves (fun hk => ?_) ?_)
        · obtain ⟨a, b, hw⟩ := stalled_write hst (ht.readUnstalled hk)
          exact ⟨a, b, hw⟩
        · exact hostFree_congr hstop.orphan hstop.portAccess (by rw [hstop.waiting])
            (hostFree_of_notOnPort ht (stalled_notOnPort hst))
      exact hreject.trans (settleHost_moves (hreject.hostTied ht))
    · exact hstop.moves

theorem execRstFalling_moves (h : execRstFalling s = .next t) : Moves k base s t := by
  unfold execRstFalling at h
  cases h
  split
  · exact Side.moves {}
  · exact Moves.afterSide Move.reset.moves

theorem execRstRising_moves (h : execRstRising s = .next t) (ht : hostTied k s) :
    Moves k base s t := by
  unfold execRstRising at h
  cases h
  split
  · exact Side.moves {}
  · have hside : Side s { s with
        pins := { s.pins with rst := true }, host := { s.host with rstHigh := true } } := {}
    exact hside.moves.trans (settleHost_moves (hside.moves (base := none) |>.hostTied ht))

theorem execHreqRising_moves (h : execHreqRising s = .next t) (ht : hostTied k s) :
    Moves k s.port.access s t := by
  unfold execHreqRising at h
  cases h
  split
  · exact Side.moves {}
  · exact Moves.afterSide (Moves.trans (takeHreqRising_moves
      (s := { s with pins := { s.pins with hreq := true } }) rfl
      (hostTied_congr (s := s) rfl rfl rfl rfl ht)) (afterEvent_moves _ _))

theorem execHreqFalling_moves (h : execHreqFalling s = .next t) (ht : hostTied k s) :
    Moves k s.port.access s t := by
  unfold execHreqFalling at h
  cases h
  split
  · exact Side.moves {}
  · exact Moves.afterSide (Moves.trans (takeHreqFalling_moves
      (s := { s with pins := { s.pins with hreq := false } }) rfl
      (hostTied_congr (s := s) rfl rfl rfl rfl ht)) (afterEvent_moves _ _))

theorem execQueueEmptyReport_moves (h : execQueueEmptyReport s = .next t) (ht : hostTied k s) :
    Moves k s.port.access s t := by
  unfold execQueueEmptyReport at h
  split at h <;> cases h
  · exact .refl
  · exact (takeQueueEmpty_moves rfl ht).trans (afterEvent_moves _ _)

theorem execGapExpiry_moves (h : execGapExpiry s = .next t) : Moves k base s t := by
  unfold execGapExpiry at h
  split at h <;> cases h
  · exact .refl
  · exact (endWait_moves _).afterSide

theorem execRetryPauseExpiry_moves (h : execRetryPauseExpiry s = .next t) : Moves k base s t := by
  unfold execRetryPauseExpiry at h
  split at h <;> cases h
  · exact .refl
  · split
    · exact (claimHead_moves _).afterSide
    · exact Side.moves {}

theorem rampExpiry_side (s : State) : Side s (rampExpiry s) where
  engine h := by
    refine ⟨?_, by simpa using h.2⟩
    have := h.1
    show (if s.engine.rampLevel > 0 ∧ s.engine.lastClass = .good then s.engine.rampLevel - 1
      else s.engine.rampLevel) ≤ 7
    split <;> omega

theorem execRampStep_moves (h : execRampStep s = .next t) : Moves k base s t := by
  unfold execRampStep at h
  split at h <;> cases h
  · exact .refl
  · exact Moves.afterReach (rampExpiry_side _).moves

/-- What every command does (Table 0-1). -/
theorem exec_kind (c : Instr) (h : exec c s = .next t) : ExecKind c s t := by
  cases c with
  | porAssert =>
    cases h
    exact .reset (.inl rfl) (.inl rfl) fun _ => .refl
  | porRelease hreq rst mrdy vsen =>
    change execPorRelease hreq rst mrdy vsen s = .next t at h
    unfold execPorRelease at h
    split at h <;> cases h
    · exact .reset (u := { s with pins := { s.pins with
        hreq := hreq, rst := rst, mrdy := mrdy, vsen := vsen } })
        (.inr ⟨_, _, _, _, rfl⟩) (.inr rfl) fun _ => releaseReset_moves _
    · exact .moves fun _ _ => .refl
  | rstFalling => exact .moves fun _ _ => execRstFalling_moves h
  | rstRising => exact .moves fun _ ht => execRstRising_moves h ht
  | hreqRising => exact .moves fun _ ht => execHreqRising_moves h ht
  | hreqFalling => exact .moves fun _ ht => execHreqFalling_moves h ht
  | hostRead a => cases h; exact .moves fun _ ht => driveRead_moves _ ht
  | statusByte0Read => cases h; exact .moves fun _ ht => driveRead_moves _ ht
  | statusByteRead n => cases h; exact .moves fun _ ht => driveRead_moves _ ht
  | hostWrite a b => cases h; exact .moves fun _ ht => driveWrite_moves _ _ ht
  | statusLineWrite n b => cases h; exact .moves fun _ ht => driveWrite_moves _ _ ht
  | ackWrite b => cases h; exact .moves fun _ ht => driveWrite_moves _ _ ht
  | fenceWrite b => cases h; exact .moves fun _ ht => driveWrite_moves _ _ ht
  | generationWrite b => cases h; exact .moves fun _ ht => driveWrite_moves _ _ ht
  | hostAccessEnd l => cases h; exact .moves fun _ ht => raiseLine_moves l ht
  | earlyRelease l => cases h; exact .moves fun _ ht => raiseLine_moves l ht
  | sample v => exact .moves fun _ ht => execSample_moves h ht
  | queueEmptyReport => exact .moves fun _ ht => execQueueEmptyReport_moves h ht
  | stallExpiry => exact .moves fun _ ht => execStallExpiry_moves h ht
  | gapExpiry => exact .moves fun _ _ => execGapExpiry_moves h
  | retryPauseExpiry => exact .moves fun _ _ => execRetryPauseExpiry_moves h
  | rampStep => exact .moves fun _ _ => execRampStep_moves h
  | writeStrobeEnd m => exact execWriteStrobeEnd_kind h
  | mrdyReady => exact execMrdyReady_kind h
  | writeTimeout => exact execWriteTimeout_kind h
  | readStrobeEnd => exact execReadStrobeEnd_kind h

end Commands

/-! ### What every command keeps -/

section Invariants

variable {k : HostTie} {base : Option PortAccess} {s t : State} {acc : PortAccess}

/-- A property of the fields that the memory port's own steps leave, kept by every move and met after
power-on reset, is kept by every command. -/
theorem exec_keeps {P : State → Prop} {c : Instr} (h : exec c s = .next t)
    (hmove : ∀ {b u v}, Move .nothing b u v → P u → P v)
    (hport : ∀ (u : State) (p : MemoryPort) (m : Memory) (n : Nat), P u →
      P { u with port := p, memory := m, freeIndex := n })
    (hreset : resets c → ∀ u, P (powerOn u)) (hs : P s) : P t := by
  have hside {u : State} (hu : Side s u) : P u :=
    Moves.keeps (hu.moves (k := .nothing) (base := none)) hmove hs
  have hgone {b u v} (hm : Moves .nothing b u v) (hu : P u) : P v := hm.keeps hmove hu
  cases exec_kind c h with
  | moves h => exact hgone (h .nothing trivial) hs
  | phase p hu hb ht => subst ht; exact hport _ _ _ _ (hside hu)
  | strobe busy hu hb ht =>
    subst ht
    unfold enterStrobe
    split <;> exact hport _ _ _ _ (hside hu)
  | @ended u acc d hu hb ht =>
    subst ht
    rw [endAccess_eq]
    refine hgone (afterDelivery_moves (k := .nothing) (base := none) _ _ _ rfl trivial)
      (hport (deliver acc d (completed acc d u)) _ _ _ ?_)
    have hcomp : P (completed acc d u) := by
      have he : completed acc d u = { u with
          port := { u.port with timeout := none }
          memory := (completed acc d u).memory
          freeIndex := (completed acc d u).freeIndex } := by
        unfold completed leaveMemory
        split
        · rfl
        · split <;> rfl
        · rfl
      rw [he]
      exact hport _ _ _ _ (hside hu)
    refine hgone (deliver_moves d (by simpa [hu.portAccess] using hb) trivial fun _ => ?_) hcomp
    exact ⟨by simp, fun _ => trivial, fun _ hn => absurd rfl hn⟩
  | reset hc hu h => exact hgone (h .nothing) (hreset hc _)

/-- A step runs the command at the front, or lets the clock run (R118, log 3): what every command keeps and
the queue of commands and the clock have no part in, every step keeps. -/
theorem step_keeps {P : State → Prop} (h : step s = .next t)
    (hexec : ∀ {c u v}, exec c u = .next v → P u → P v)
    (hrest : ∀ rest n, P s → P { s with pending := rest, now := n }) (hs : P s) : P t := by
  unfold step at h
  split at h
  · cases h; exact hrest s.pending (s.now + 1) hs
  · next c rest hp => exact hexec h (hrest rest s.now hs)

theorem queueInv_powerOn (s : State) : QueueInv (powerOn s) :=
  ⟨⟨Nat.zero_le _, List.forall_mem_nil _, List.forall_mem_nil _⟩, rfl⟩

/-- Settles O6: the moves keep the queue within R1, R2 and R4. -/
theorem queueStaysWellFormed : Obligations.QueueStaysWellFormed := fun _ _ hs h =>
  step_keeps (P := QueueInv) h
    (fun h => exec_keeps h Move.queueInv (fun _ _ _ _ hu => hu) fun _ => queueInv_powerOn)
    (fun _ _ hs => hs) hs

theorem engineInv_powerOn (s : State) : EngineInv (powerOn s) :=
  show EngineInv State.reset by decide

theorem monitorInv_powerOn (s : State) : MonitorInv (powerOn s) :=
  show MonitorInv State.reset by decide

/-- Settles O9: the moves keep the ranges of the engine and of the monitor. -/
theorem countersStayInRange : Obligations.CountersStayInRange := fun _ _ h =>
  ⟨step_keeps (P := EngineInv) h
    (fun h => exec_keeps h Move.engineInv (fun _ _ _ _ hu => hu) fun _ => engineInv_powerOn)
    fun _ _ hs => hs,
  step_keeps (P := MonitorInv) h
    (fun h => exec_keeps h Move.monitorInv (fun _ _ _ _ hu => hu) fun _ => monitorInv_powerOn)
    fun _ _ hs => hs⟩

/-- Settles O12: the moves let no saturating count fall, and the two resets are excepted. -/
theorem saturatingCountsNeverFall : Obligations.SaturatingCountsNeverFall := by
  intro c s t h hassert hrelease
  refine exec_keeps (P := countsRisen s) h (fun hm hu => hu.trans hm.countsRisen)
    (fun _ _ _ _ hu => hu) (fun hc => ?_) ⟨BitVec.le_refl _, BitVec.le_refl _, BitVec.le_refl _⟩
  rcases hc with hc | ⟨hreq, rst, mrdy, vsen, hc⟩
  · exact absurd hc hassert
  · exact absurd hc (hrelease hreq rst mrdy vsen)

/-! ### The host port -/

theorem HostPortInv.congr (ha : t.host.access = s.host.access) (ho : t.host.orphan = s.host.orphan)
    (hp : t.port.access = s.port.access) (hw : t.port.waiting.host = s.port.waiting.host)
    (h : HostPortInv s) : HostPortInv t := hostTied_congr (k := .running) ha ho hp hw h

/-- A phase gone through leaves the access and its request (R109). -/
theorem HostPortInv.phase {p : Phase} (hb : s.port.access = some acc)
    (hp : t.port.access = some { acc with phase := p }) (hw : t.port.waiting = s.port.waiting)
    (hh : t.host = s.host) (h : HostPortInv s) : HostPortInv t := by
  obtain ⟨hr, hask, hrun⟩ := h
  rw [HostPortInv, hp, hw, hh]
  refine ⟨hr, fun op hop => ?_, fun op ph he => ?_⟩
  · obtain ⟨h1, h2, h3⟩ := hask op hop
    refine ⟨h1, h2, fun o ph he => ?_⟩
    obtain ⟨hreq, hop, -⟩ := PortAccess.mk.inj (Option.some.inj he)
    exact h3 o acc.phase (by rw [hb, ← hreq, ← hop])
  · obtain ⟨hreq, hop, -⟩ := PortAccess.mk.inj (Option.some.inj he)
    exact hrun op acc.phase (by rw [hb, ← hreq, ← hop])

/-- With the port IDLE the whole tie holds as soon as the part within a completion does. -/
theorem hostTied_idlePort (hk : k ≠ .nothing) (h : hostTied k s) : HostPortInv (idlePort s) := by
  cases k with
  | nothing => exact absurd rfl hk
  | running =>
    exact ⟨h.1, fun op hop => ⟨(h.2.1 op hop).1, (h.2.1 op hop).2.1, fun _ _ he => by cases he⟩,
      fun _ _ he => by cases he⟩
  | ended =>
    exact ⟨h.1, fun op hop => ⟨(h.2 op hop).1, (h.2 op hop).2, fun _ _ he => by cases he⟩,
      fun _ _ he => by cases he⟩

/-- The end of an access leaves the tie (R113, R106). -/
theorem HostPortInv.endAccess (d : Completion) (hb : s.port.access = some acc) (h : HostPortInv s) :
    HostPortInv (endAccess acc d s) := by
  have hc : HostPortInv (completed acc d s) :=
    h.congr (by simp) (by simp) (by simp) (by simp)
  have hb' : (completed acc d s).port.access = some acc := by simpa using hb
  have hidle : HostPortInv (idlePort (deliver acc d (completed acc d s))) := by
    by_cases hr : acc.requester = .host
    · have hb2 : (completed acc d s).port.access = some ⟨.host, acc.op, acc.phase⟩ := by
        rw [hb', ← hr]
      refine hostTied_idlePort (k := .ended) (by simp)
        ((deliver_moves d hb' hc.ended fun _ => ⟨by simp, fun _ => ?_, fun ho _ => ?_⟩).hostTied hc.ended)
      · show (completed acc d s).port.waiting.host = none
        by_contra hne
        obtain ⟨op, hop⟩ := Option.ne_none_iff_exists'.1 hne
        exact (hc.2.1 op hop).2.2 _ _ hb2
      · obtain ⟨rel, ha⟩ := hc.2.2 _ _ hb2 ho
        exact ⟨_, rel, ha⟩
    · exact hostTied_idlePort (k := .running) (by simp)
        ((deliver_moves (k := .running) d hb' hc fun h => absurd h hr).hostTied hc)
  rw [endAccess_eq]
  exact (afterDelivery_moves (base := none) (k := .running) _ _ _ rfl hidle).hostTied hidle

theorem exec_hostPortInv {c : Instr} (h : exec c s = .next t) (hs : HostPortInv s) :
    HostPortInv t := by
  have hside {u : State} (hu : Side s u) : HostPortInv u :=
    hs.congr hu.access hu.orphan hu.portAccess (by rw [hu.waiting])
  cases exec_kind c h with
  | moves h => exact (h .running hs).hostTied hs
  | phase p hu hb ht =>
    subst ht
    exact (hside hu).phase (hu.portAccess.trans hb) rfl rfl rfl
  | strobe busy hu hb ht =>
    subst ht
    unfold enterStrobe
    split <;> exact (hside hu).phase (hu.portAccess.trans hb) rfl rfl rfl
  | ended d hu hb ht =>
    subst ht
    exact (hside hu).endAccess d (hu.portAccess.trans hb)
  | @reset u hc hu h =>
    exact (h .running).hostTied (hostTied_powerOn .running u)

/-- Settles O8: the moves keep the tie between the host port and the memory port; the end of an access keeps
it through the weaker tie that holds while its completion is delivered. -/
theorem readIsNeverAnsweredErr : Obligations.ReadIsNeverAnsweredErr := fun _ _ hs h =>
  step_keeps (P := HostPortInv) h exec_hostPortInv (fun _ _ hs => hs) hs

/-! ### The occupancy -/

/-- A slot stall is a write's (R117). -/
theorem slotStalled_iff (h : HostPortInv s) : slotStalled s = true ↔ slotWrite s := by
  constructor
  · intro hs
    unfold slotStalled at hs
    split at hs
    · next op merge rel hacc =>
      cases op with
      | read a => exact absurd rfl ((h.1 _ hacc rfl).2 _)
      | write a b => exact ⟨a, b, merge, rel, hacc⟩
    · cases hs
  · rintro ⟨a, b, merge, rel, hacc⟩
    simp [slotStalled, hacc]

theorem occupied_powerOn (s : State) : occupied (powerOn s) :=
  ⟨fun _ => rfl, fun ⟨_, _, _, _, h⟩ => by cases h⟩

theorem occupied_step (h : step s = .next t) (hs : occupied s) : occupied t :=
  step_keeps (P := occupied) h
    (fun h => exec_keeps h Move.occupied (fun _ _ _ _ hu => hu) fun _ => occupied_powerOn)
    (fun _ _ hs => hs) hs

/-- Settles O7: the moves keep the occupancy for a stalled write, which is all that a slot stall can be by
HostPortInv, and a well-formed queue holds no more than 32 entries. -/
theorem queueFollowsMode : Obligations.QueueFollowsMode := by
  intro s t hq hp ⟨hm, hw⟩ h
  have hocc : occupied t := occupied_step h
    ⟨hm, fun hsl => Nat.le_of_eq (hw ((slotStalled_iff hp).2 hsl)).symm⟩
  have hlen : t.queue.length ≤ queueCapacity := (queueStaysWellFormed s t hq h).1.1
  refine ⟨hocc.1, fun hsl => Nat.le_antisymm hlen (hocc.2 ?_)⟩
  exact (slotStalled_iff (readIsNeverAnsweredErr s t hp h)).1 hsl

/-! ### The memory port -/

/-- Within an access nothing of the memory changes (R103). -/
theorem Moves.busy_memory (h : Moves k (some acc) s t) (hs : s.port.access = some acc) :
    t.memory = s.memory := by
  rcases h.keeps Move.grantedSince (.inl ⟨hs, rfl⟩ : grantedSince (some acc) s.memory s) with
    ⟨-, hm⟩ | ⟨hn, -⟩
  · exact hm
  · cases hn

/-- What became of the memory port once the end of an access left it IDLE (R106). -/
theorem endAccess_granted (d : Completion) (hb : s.port.access = some acc) :
    grantedSince none (completed acc d s).memory (endAccess acc d s) := by
  have hb' : (completed acc d s).port.access = some acc := by simpa using hb
  have hdeliver : Moves .nothing (some acc) (completed acc d s) (deliver acc d (completed acc d s)) :=
    deliver_moves d hb' trivial fun _ => ⟨by simp, fun _ => trivial, fun _ hn => absurd rfl hn⟩
  rw [endAccess_eq]
  refine (afterDelivery_moves (k := .nothing) (base := none) _ _ _ rfl trivial).keeps
    Move.grantedSince (.inl ⟨rfl, ?_⟩)
  exact hdeliver.busy_memory hb'

/-- A write that the mode gate lets through is none of those that start no more (R108). -/
theorem gateOpen_write {m : Mode} {r : Requester} {op : BusOp} (hg : gateOpen m r op = true)
    (hw : op.isRead = false) : ¬ (m = .hold ∨ m = .entering ∧ r ≠ .status) := by
  rintro (rfl | ⟨rfl, hr⟩)
  · simp [gateOpen, hw] at hg
  · simp [gateOpen, hw, hr] at hg

theorem exec_noWriteStarts {c : Instr} {acc : PortAccess} (h : exec c s = .next t)
    (ha : t.port.access = some acc) (hw : acc.op.isRead = false)
    (hm : t.control.mode = .hold ∨ t.control.mode = .entering ∧ acc.requester ≠ .status) :
    ∃ p, s.port.access = some { acc with phase := p } := by
  have hgranted {b : Option PortAccess} {m : Memory} (hg : grantedSince b m t) : b = some acc := by
    rcases hg with ⟨hacc, -⟩ | ⟨-, acc', hacc, hopen, -⟩
    · exact hacc.symm.trans ha
    · rw [ha] at hacc
      cases hacc
      exact absurd hm (gateOpen_write hopen hw)
  cases exec_kind c h with
  | moves h =>
    refine ⟨acc.phase, hgranted (m := s.memory) ?_⟩
    exact (h .nothing trivial).keeps Move.grantedSince (.inl ⟨rfl, rfl⟩)
  | @phase u acc' p hu hb ht =>
    subst ht
    cases (setPhase_port_access acc' p u).symm.trans ha
    exact ⟨acc'.phase, hb⟩
  | @strobe u acc' busy hu hb ht =>
    subst ht
    have hp : ∃ p, (enterStrobe acc' busy u).port.access = some { acc' with phase := p } := by
      unfold enterStrobe
      split <;> exact ⟨_, rfl⟩
    obtain ⟨p, hp⟩ := hp
    cases hp.symm.trans ha
    exact ⟨acc'.phase, hb⟩
  | ended d hu hb ht =>
    subst ht
    cases hgranted (endAccess_granted d (hu.portAccess.trans hb))
  | @reset u hc hu h =>
    cases hgranted ((h .nothing).keeps Move.grantedSince
      (.inl ⟨rfl, rfl⟩ : grantedSince none (powerOn u).memory (powerOn u)))

/-- The state in which the front command runs has the blocks of the state before the step. -/
theorem step_cases (h : step s = .next t) :
    t = { s with now := s.now + 1 } ∨
      ∃ c rest, s.pending = c :: rest ∧ exec c { s with pending := rest } = .next t := by
  unfold step at h
  split at h
  · cases h; exact .inl rfl
  · next c rest hp => exact .inr ⟨c, rest, hp, h⟩

/-- Settles O10: a grant since the step began was one the mode of its end lets through, for the mode changes
before any grant; every other access was in progress already. -/
theorem noWriteStartsInHold : Obligations.NoWriteStartsInHold := by
  intro s t acc h ha hw hm
  rcases step_cases h with rfl | ⟨c, rest, -, h⟩
  · exact ⟨acc.phase, ha⟩
  · exact exec_noWriteStarts (s := { s with pending := rest }) h ha hw hm

/-! ### The memory -/

theorem leaveMemory_wf (d : Completion) (h : s.memory.wf) : (leaveMemory acc d s).memory.wf := by
  unfold leaveMemory
  split
  · exact memWrite_wf _ _ h
  · split
    · exact h
    · exact memDisturb_wf h _ _ _
  · exact h

theorem cutOffWrite_wf (h : s.memory.wf) : (cutOffWrite s).memory.wf := by
  unfold cutOffWrite
  split
  · exact memDisturb_wf h _ _ _
  · exact h

theorem grantedSince.memory_wf {m : Memory} (h : grantedSince base m t) (hm : m.wf) :
    t.memory.wf := by
  rcases h with ⟨-, he⟩ | ⟨-, -, -, -, he | ⟨a, b, -, he⟩⟩ <;> rw [he]
  · exact hm
  · exact hm
  · exact memForget_wf a hm

theorem exec_memory_wf {c : Instr} (h : exec c s = .next t) (hs : s.memory.wf) : t.memory.wf := by
  cases exec_kind c h with
  | moves h =>
    exact grantedSince.memory_wf (base := s.port.access)
      ((h .nothing trivial).keeps Move.grantedSince (.inl ⟨rfl, rfl⟩)) hs
  | phase p hu hb ht => subst ht; rw [← hu.memory] at hs; exact hs
  | @strobe u acc busy hu hb ht =>
    subst ht
    rw [← hu.memory] at hs
    unfold enterStrobe
    split
    · exact hs
    · exact memForget_wf _ hs
  | ended d hu hb ht =>
    subst ht
    rw [← hu.memory] at hs
    exact (endAccess_granted d (hu.portAccess.trans hb)).memory_wf (leaveMemory_wf d hs)
  | @reset u hc hu h =>
    refine grantedSince.memory_wf (base := none) (m := u.memory)
      ((h .nothing).keeps Move.grantedSince (.inl ⟨rfl, rfl⟩)) ?_
    rcases hu with rfl | hu
    · exact cutOffWrite_wf hs
    · rw [hu]; exact hs

/-- Settles O5: a grant, the end of a write and a disturbance each keep the canonical form. -/
theorem memoryStaysCanonical : Obligations.MemoryStaysCanonical := fun _ _ hs h =>
  step_keeps (P := fun s => s.memory.wf) h exec_memory_wf (fun _ _ hs => hs) hs

/-- What O11 says of one address: its byte is as it was, or changed by a write of these kinds. -/
def byteChanged (s t : State) (a : Addr) : Prop :=
  ∃ acc a' b, acc.op = .write a' b ∧
    ((a' = a ∧ (s.port.access = some acc ∨ t.port.access = some acc)) ∨
      (neighbours a' a ∧ s.port.access = some acc ∧ acc.phase ≠ .readyWait ∧
        memRead t.memory a = none))

/-- A byte that a grant changed is that of the write it granted (R114). -/
theorem grantedSince.byteChanged {m : Memory} {a : Addr} (h : grantedSince base m t)
    (hne : memRead t.memory a ≠ memRead m a) : byteChanged s t a := by
  rcases h with ⟨-, he⟩ | ⟨-, acc, hacc, -, he | ⟨a', b, hop, he⟩⟩
  · exact absurd (by rw [he]) hne
  · exact absurd (by rw [he]) hne
  · rw [he] at hne
    have ha : a' = a := by
      by_contra hna
      exact hne (memRead_memForget_other _ (Ne.symm hna))
    exact ⟨acc, a', b, hop, .inl ⟨ha, .inr hacc⟩⟩

/-- A byte that the end of an access changed is that of the write that ended, or lies next to it and is
unknown (R111, R114). -/
theorem leaveMemory_changed {d : Completion} {a : Addr}
    (hne : memRead (leaveMemory acc d s).memory a ≠ memRead s.memory a) :
    ∃ a' b, acc.op = .write a' b ∧ (a' = a ∨ (neighbours a' a ∧ acc.phase ≠ .readyWait ∧
      memRead (leaveMemory acc d s).memory a = none)) := by
  unfold leaveMemory at hne ⊢
  split at hne
  · next a' b hop =>
    refine ⟨a', b, hop, .inl ?_⟩
    by_contra hna
    exact hne (memRead_memWrite_other _ b (Ne.symm hna))
  · next a' b hop =>
    split at hne
    · exact absurd rfl hne
    · next hph =>
      refine ⟨a', b, hop, .inr ⟨?_, hph, ?_⟩⟩
      · by_contra hnb
        exact hne (memRead_memDisturb_other _ _ _ hnb)
      · rw [if_neg hph]
        exact (memRead_memDisturb _ _ _).resolve_left hne
  · exact absurd rfl hne

theorem cutOffWrite_changed {a : Addr}
    (hne : memRead (cutOffWrite s).memory a ≠ memRead s.memory a) :
    ∃ r a' b, s.port.access = some ⟨r, .write a' b, .busyWatch⟩ ∧ neighbours a' a ∧
      memRead (cutOffWrite s).memory a = none := by
  unfold cutOffWrite at hne ⊢
  split at hne
  · next r a' b hb =>
    refine ⟨r, a', b, hb, ?_, ?_⟩
    · by_contra hnb
      exact hne (memRead_memDisturb_other _ _ _ hnb)
    · exact (memRead_memDisturb _ _ _).resolve_left hne
  · exact absurd rfl hne

theorem exec_byteChanged {c : Instr} {a : Addr} (h : exec c s = .next t)
    (hne : memRead t.memory a ≠ memRead s.memory a) : byteChanged s t a := by
  cases exec_kind c h with
  | moves h =>
    exact grantedSince.byteChanged (base := s.port.access)
      ((h .nothing trivial).keeps Move.grantedSince (.inl ⟨rfl, rfl⟩)) hne
  | phase p hu hb ht =>
    subst ht
    exact absurd (by rw [setPhase_frame _ _ _ |>.2.2.2.2.2.2.2.2.2.2.2.2.2.1, hu.memory]) hne
  | @strobe u acc busy hu hb ht =>
    subst ht
    unfold enterStrobe at hne
    split at hne
    · exact absurd (by rw [← hu.memory]) hne
    · next a' b hop =>
      rw [← hu.memory] at hne
      refine ⟨acc, a', b, hop, .inl ⟨?_, .inl hb⟩⟩
      by_contra hna
      exact hne (memRead_memForget_other _ (Ne.symm hna))
  | @ended u acc d hu hb ht =>
    subst ht
    have hg := endAccess_granted d (hu.portAccess.trans hb)
    by_cases hlate : memRead (endAccess acc d u).memory a = memRead (completed acc d u).memory a
    · rw [← hu.memory, hlate] at hne
      obtain ⟨a', b, hop, ha | ⟨hnb, hph, hnone⟩⟩ := leaveMemory_changed hne
      · exact ⟨acc, a', b, hop, .inl ⟨ha, .inl hb⟩⟩
      · exact ⟨acc, a', b, hop, .inr ⟨hnb, hb, hph, hlate.trans hnone⟩⟩
    · exact hg.byteChanged hlate
  | @reset u hc hu h =>
    have hg : grantedSince none u.memory t :=
      (h .nothing).keeps Move.grantedSince (.inl ⟨rfl, rfl⟩)
    by_cases hlate : memRead t.memory a = memRead u.memory a
    · rcases hu with rfl | hu
      · rw [hlate] at hne
        obtain ⟨r, a', b, hb, hnb, hnone⟩ := cutOffWrite_changed hne
        exact ⟨_, a', b, rfl, .inr ⟨hnb, hb, by simp, hlate.trans hnone⟩⟩
      · exact absurd (by rw [hlate, hu]) hne
    · exact hg.byteChanged hlate

/-- Settles O11: a byte changes by a grant's strobe, by the strobe or the end of the write in progress, or by
a disturbance next to that write. -/
theorem memoryChangesOnlyAtItsWrite : Obligations.MemoryChangesOnlyAtItsWrite := by
  intro s t a h hne
  rcases step_cases h with rfl | ⟨c, rest, -, h⟩
  · exact absurd rfl hne
  · exact exec_byteChanged (s := { s with pending := rest }) h hne

end Invariants

end Sys2Proof.Machine

/-! ## The commands as a whole (spec/95, Table 0-1) -/

namespace Sys2Proof.Machine

open Sys2Proof

set_option Elab.async false

/-- Settles O1: a step with a command waiting is defined as that command's run. -/
theorem stepRunsFrontCommand : Obligations.StepRunsFrontCommand := fun _ _ _ => rfl

/-- What the outcome of a command, whatever it is, leaves of the waiting commands and of power-on reset. -/
def goesOnFrom (s : State) (por : Prop) (o : Result) : Prop :=
  ∃ t, o = .next t ∧ t.pending = s.pending ∧ (t.porAsserted = s.porAsserted ∨ por)

/-- A next state that keeps both is what every command but the two of power-on reset answers. -/
theorem goesOnFrom.next {s t : State} {por : Prop} (hp : t.pending = s.pending)
    (ha : t.porAsserted = s.porAsserted) : goesOnFrom s por (.next t) :=
  ⟨t, rfl, hp, .inl ha⟩

theorem releaseReset_pending (s : State) : (releaseReset s).pending = s.pending := by
  simp [releaseReset]

/-- Every command answers a next state with the same commands waiting, and none but the two of power-on
reset moves it (Table 0-1). -/
theorem exec_goesOn (c : Instr) (s : State) : goesOnFrom s (resets c) (exec c s) := by
  cases c with
  | porAssert => exact ⟨_, rfl, by unfold cutOffWrite; split <;> simp, .inr (.inl rfl)⟩
  | porRelease hreq rst mrdy vsen =>
    show goesOnFrom _ _ (execPorRelease hreq rst mrdy vsen s)
    unfold execPorRelease
    split
    · exact ⟨_, rfl, releaseReset_pending _, .inr (.inr ⟨_, _, _, _, rfl⟩)⟩
    · exact .next rfl rfl
  | rstFalling =>
    refine .next ?_ ?_ <;> split <;> simp
  | rstRising => refine .next ?_ ?_ <;> split <;> simp
  | hreqRising => refine .next ?_ ?_ <;> split <;> simp
  | hreqFalling => refine .next ?_ ?_ <;> split <;> simp
  | hostRead a => exact .next (by simp) (by simp)
  | statusByte0Read => exact .next (by simp) (by simp)
  | statusByteRead n => exact .next (by simp) (by simp)
  | hostWrite a b => exact .next (by simp) (by simp)
  | statusLineWrite n b => exact .next (by simp) (by simp)
  | ackWrite b => exact .next (by simp) (by simp)
  | fenceWrite b => exact .next (by simp) (by simp)
  | generationWrite b => exact .next (by simp) (by simp)
  | hostAccessEnd l => exact .next (by simp) (by simp)
  | earlyRelease l => exact .next (by simp) (by simp)
  | sample v =>
    show goesOnFrom _ _ (execSample v s)
    unfold execSample
    split <;> exact .next (by simp) (by simp)
  | queueEmptyReport =>
    show goesOnFrom _ _ (execQueueEmptyReport s)
    unfold execQueueEmptyReport
    split <;> exact .next (by simp) (by simp)
  | stallExpiry =>
    show goesOnFrom _ _ (execStallExpiry s)
    unfold execStallExpiry
    split
    · exact .next rfl rfl
    · refine .next ?_ ?_ <;> split <;> simp
  | gapExpiry =>
    show goesOnFrom _ _ (execGapExpiry s)
    unfold execGapExpiry
    split <;> exact .next (by simp) (by simp)
  | retryPauseExpiry =>
    show goesOnFrom _ _ (execRetryPauseExpiry s)
    unfold execRetryPauseExpiry
    split
    · exact .next rfl rfl
    · refine .next ?_ ?_ <;> split <;> simp
  | rampStep =>
    show goesOnFrom _ _ (execRampStep s)
    unfold execRampStep
    split <;> exact .next (by simp) (by simp)
  | writeStrobeEnd m =>
    show goesOnFrom _ _ (execWriteStrobeEnd m s)
    unfold execWriteStrobeEnd
    split <;> exact .next (by simp) (by simp)
  | mrdyReady =>
    show goesOnFrom _ _ (execMrdyReady s)
    unfold execMrdyReady
    dsimp only
    split <;> exact .next (by simp) (by simp)
  | writeTimeout =>
    show goesOnFrom _ _ (execWriteTimeout s)
    unfold execWriteTimeout
    split <;> exact .next (by simp) (by simp)
  | readStrobeEnd =>
    show goesOnFrom _ _ (execReadStrobeEnd s)
    unfold execReadStrobeEnd
    split
    · refine .next ?_ ?_ <;> unfold driveByte <;> split <;> simp
    · exact .next rfl rfl

/-- Settles O2. -/
theorem everyCommandCompletes : Obligations.EveryCommandCompletes := by
  intro c s
  obtain ⟨t, ht, hp, ha⟩ := exec_goesOn c s
  exact ⟨t, ht, hp, fun hne => ha.resolve_left hne⟩

/-- The commands that can change the mode controller: the events of chapter 3, and the commands of the
memory bus with an access in progress, whose end may be that of an awaited write (R49). -/
def movesControl (c : Instr) (s : State) : Prop :=
  c = .porAssert ∨ (∃ hreq rst mrdy vsen, c = .porRelease hreq rst mrdy vsen) ∨
    c = .hreqRising ∨ c = .hreqFalling ∨ (∃ vsen, c = .sample vsen) ∨ c = .queueEmptyReport ∨
    (∃ acc, s.port.access = some acc ∧
      (c = .mrdyReady ∨ c = .writeTimeout ∨ c = .readStrobeEnd ∨ ∃ m, c = .writeStrobeEnd m))

/-- A command of the memory bus that finds a phase to act on finds an access (Table 6-1). -/
theorem movesControl.bus {c : Instr} {s : State} {acc : PortAccess} (h : s.port.access = some acc)
    (hc : c = .mrdyReady ∨ c = .writeTimeout ∨ c = .readStrobeEnd ∨ ∃ m, c = .writeStrobeEnd m) :
    movesControl c s := .inr (.inr (.inr (.inr (.inr (.inr ⟨acc, h, hc⟩)))))

/-- Every other command leaves the mode controller (R46 to R48, R57, R66). -/
theorem exec_control {c : Instr} {s t : State} (h : exec c s = .next t) :
    t.control = s.control ∨ movesControl c s := by
  cases c with
  | porAssert => exact .inr (.inl rfl)
  | porRelease => exact .inr (.inr (.inl ⟨_, _, _, _, rfl⟩))
  | hreqRising => exact .inr (.inr (.inr (.inl rfl)))
  | hreqFalling => exact .inr (.inr (.inr (.inr (.inl rfl))))
  | sample => exact .inr (.inr (.inr (.inr (.inr (.inl ⟨_, rfl⟩)))))
  | queueEmptyReport => exact .inr (.inr (.inr (.inr (.inr (.inr (.inl rfl))))))
  | writeStrobeEnd m =>
    change execWriteStrobeEnd m s = .next t at h
    unfold execWriteStrobeEnd at h
    split at h
    · next hb => exact .inr (.bus hb (.inr (.inr (.inr ⟨m, rfl⟩))))
    · cases h; exact .inl rfl
  | mrdyReady =>
    change execMrdyReady s = .next t at h
    unfold execMrdyReady at h
    dsimp only at h
    split at h
    · next hb => exact .inr (.bus hb (.inl rfl))
    · next hb => exact .inr (.bus hb (.inl rfl))
    · cases h; exact .inl rfl
  | writeTimeout =>
    change execWriteTimeout s = .next t at h
    unfold execWriteTimeout at h
    split at h
    · next hb => exact .inr (.bus hb (.inr (.inl rfl)))
    · cases h; exact .inl rfl
  | readStrobeEnd =>
    change execReadStrobeEnd s = .next t at h
    unfold execReadStrobeEnd at h
    split at h
    · next hb => exact .inr (.bus hb (.inr (.inr (.inl rfl))))
    · cases h; exact .inl rfl
  | rstFalling => cases h; left; split <;> simp
  | rstRising => cases h; left; split <;> simp
  | hostRead a => cases h; simp
  | statusByte0Read => cases h; simp
  | statusByteRead n => cases h; simp
  | hostWrite a b => cases h; simp
  | statusLineWrite n b => cases h; simp
  | ackWrite b => cases h; simp
  | fenceWrite b => cases h; simp
  | generationWrite b => cases h; simp
  | hostAccessEnd l => cases h; simp
  | earlyRelease l => cases h; simp
  | stallExpiry =>
    change execStallExpiry s = .next t at h
    unfold execStallExpiry at h
    split at h <;> cases h
    · exact .inl rfl
    · left; split <;> simp
  | gapExpiry =>
    change execGapExpiry s = .next t at h
    unfold execGapExpiry at h
    split at h <;> cases h <;> simp
  | retryPauseExpiry =>
    change execRetryPauseExpiry s = .next t at h
    unfold execRetryPauseExpiry at h
    split at h <;> cases h
    · exact .inl rfl
    · left; split <;> simp
  | rampStep =>
    change execRampStep s = .next t at h
    unfold execRampStep at h
    split at h <;> cases h <;> simp

/-- Settles O3. -/
theorem onlyModeEventsMoveTheMode : Obligations.OnlyModeEventsMoveTheMode := fun _ _ _ h hne =>
  (exec_control h).resolve_left hne

/-! ### Power-on reset -/

/-- Settles O4: the reset state is a concrete one. -/
theorem resetMeetsInvariants : Obligations.ResetMeetsInvariants :=
  ⟨reset_memory_wf, queueInv_powerOn State.reset, ⟨fun _ => rfl, fun h => by cases h⟩,
    monitorInv_powerOn State.reset, engineInv_powerOn State.reset,
    hostTied_powerOn .running State.reset⟩

/-- Away from a write in its busy watch, power-on reset leaves a byte (R116, R111). -/
theorem memRead_cutOffWrite (s : State) (a : Addr) :
    ((∀ r a' b, s.port.access = some ⟨r, .write a' b, .busyWatch⟩ → ¬ neighbours a' a) →
      memRead (cutOffWrite s).memory a = memRead s.memory a) ∧
    (memRead (cutOffWrite s).memory a = memRead s.memory a ∨
      memRead (cutOffWrite s).memory a = none) := by
  unfold cutOffWrite
  split
  · next r a' b hb =>
    exact ⟨fun h => memRead_memDisturb_other _ _ _ (h r a' b hb), memRead_memDisturb _ _ _⟩
  · exact ⟨fun _ => rfl, .inl rfl⟩

/-- The status shadow after power-on reset is that of Table 8-1. -/
theorem powerOn_shadow (s : State) : (powerOn s).shadow = Shadow.reset := by
  have hc : (powerOn s).causes = 0#8 := show State.reset.causes = 0#8 by decide
  unfold State.shadow
  rw [hc]
  rfl

/-- Settles O14: power-on reset is the reset state with the memory, the pins, the clock and the snapshot's
bytes kept. -/
theorem powerOnResetValues : Obligations.PowerOnResetValues := by
  intro s
  refine ⟨_, exec_porAssert s, rfl, rfl, rfl, rfl, rfl, rfl, rfl, rfl, rfl, rfl, rfl, rfl, rfl, rfl, rfl,
    rfl, rfl, rfl, rfl, ⟨rfl, rfl⟩, rfl, rfl,
    powerOn_shadow _, rfl, ?_, rfl, rfl, rfl, rfl, rfl, rfl, rfl, rfl, rfl,
    rfl, rfl, rfl, ?_, fun a => (memRead_cutOffWrite s a).1, fun a => (memRead_cutOffWrite s a).2⟩
  all_goals
    unfold cutOffWrite
    split <;> rfl

end Sys2Proof.Machine

/-! ## The overlay, the image and the grant decision -/

namespace Sys2Proof.Machine

open Sys2Proof

set_option Elab.async false

/-! ### The overlay (R23) -/

/-- The younger entries answer before the older one does (R23). -/
theorem overlay_cons (e : Entry) (rest : List Entry) (a : Addr) :
    overlay (e :: rest) a = (overlay rest a).or (e.held a) := by
  rw [overlay]
  cases overlay rest a <;> rfl

/-- A miss is that no entry holds the address (R23). -/
theorem overlay_eq_none_iff (q : List Entry) (a : Addr) :
    overlay q a = none ↔ ∀ e ∈ q, e.held a = none := by
  induction q with
  | nil => simp [overlay]
  | cons e rest ih =>
    rw [overlay_cons, Option.or_eq_none_iff, ih, List.forall_mem_cons, and_comm]

/-- A hit is the youngest holder's byte (R23). -/
theorem overlay_eq_some_iff (q : List Entry) (a : Addr) (b : Byte) :
    overlay q a = some b ↔ ∃ older e younger, q = older ++ e :: younger ∧ e.held a = some b ∧
      ∀ x ∈ younger, x.held a = none := by
  induction q with
  | nil => simp [overlay]
  | cons e rest ih =>
    rw [overlay_cons, Option.or_eq_some_iff, ih, overlay_eq_none_iff]
    constructor
    · rintro (⟨older, e', younger, rfl, he, hy⟩ | ⟨hy, he⟩)
      · exact ⟨e :: older, e', younger, rfl, he, hy⟩
      · exact ⟨[], e, rest, rfl, he, hy⟩
    · rintro ⟨older, e', younger, hq, he, hy⟩
      cases older with
      | nil => cases hq; exact .inr ⟨hy, he⟩
      | cons o older => cases hq; exact .inl ⟨older, e', younger, rfl, he, hy⟩

/-- Settles O57: an entry is a holder exactly where `Entry.held` finds a byte. -/
theorem overlayIsYoungestHolder : Obligations.OverlayIsYoungestHolder := by
  intro q a holds
  have hheld : ∀ e b, holds e b ↔ e.held a = some b := by
    rintro ⟨body, st⟩ b
    cases body with
    | data line bytes =>
      show line = lineOf a ∧ cellGet bytes (offsetOf a) = some b ↔ (if _ then _ else _) = _
      split <;> simp [*]
    | fence tag =>
      show a = fenceAddr ∧ tag = b ↔ (if _ then _ else _) = _
      split <;> simp [*]
  refine ⟨fun b => ?_, ?_⟩
  · simp only [hheld, overlay_eq_some_iff, Option.eq_none_iff_forall_ne_some, ne_eq]
  · rw [overlay_eq_none_iff]
    simp only [hheld, Option.eq_none_iff_forall_ne_some, ne_eq]

/-! ### The image of the status shadow (Table 9-4) -/

/-- The safety state comes back from byte 0 of an image. -/
theorem lineSafety_bytes (h : Shadow) : lineSafety h.bytes = h.safety := by
  show safetyOf (h.byte0.extractLsb' 3 2) = h.safety
  have hcode : h.byte0.extractLsb' 3 2 = h.safety.code := by
    unfold Shadow.byte0
    generalize BitVec.ofBool h.warned = x, BitVec.ofBool h.unmarked = y,
      BitVec.ofBool (decide (h.reason = .forced)) = z, h.safety.code = c, h.mode.code = m
    revert x y z c m
    decide
  rw [hcode]
  cases h.safety <;> rfl

/-- The two fence fields come back from byte 2 of an image. -/
theorem lineFences_bytes (h : Shadow) :
    lineFenceLoss h.bytes = h.fenceLoss ∧ lineOpenLoss h.bytes = h.openLoss := by
  show h.byte2.getLsbD 0 = h.fenceLoss ∧ h.byte2.getLsbD 2 = h.openLoss
  unfold Shadow.byte2
  generalize h.supplyClass.code = c, h.openLoss = x, h.fenceUnknown = y, h.fenceLoss = z
  revert c x y z
  decide

/-- Settles O59. -/
theorem imageReadsBack : Obligations.ImageReadsBack := fun h =>
  ⟨shadow_bytes_length h, by simp [statusLineValid, byteSum_shadow_bytes], lineSafety_bytes h, rfl,
    (lineFences_bytes h).1, (lineFences_bytes h).2⟩

/-! ### The grant decision (Table 6-3) -/

/-- On an IDLE port the decision's choice is granted (R106). -/
theorem decideGrant_choice {s : State} {r : Requester} {op : BusOp} (hp : s.port.access = none)
    (h : grantChoice s.control.mode s.port.waiting s.port.marker = some (r, op)) :
    decideGrant s = grant r op s := by
  rw [decideGrant, hp, h]

/-- Settles O45: a decision grants the choice of Table 6-3. -/
theorem grantOrder : Obligations.GrantOrder := by
  intro s hp asks granted
  have hgrant {r : Requester} {op : BusOp}
      (h : grantChoice s.control.mode s.port.waiting s.port.marker = some (r, op)) :
      granted r op (markerAfter s.port.marker r) := by
    show _ ∧ _ ∧ _ ∧ _
    rw [decideGrant_choice hp h, grant_eq]
    exact ⟨rfl, rfl, rfl, rfl⟩
  refine ⟨fun op h1 => hgrant ?_, fun op h1 h2 => hgrant ?_, fun h h1 h2 h3 h4 => hgrant ?_,
    fun d h1 h2 h3 h4 => hgrant ?_, fun h => ?_⟩
  · simp only [asks] at h1
    simp [grantChoice, h1]
  · simp only [asks] at h1 h2
    simp [grantChoice, h1, h2]
  · simp only [asks] at h1 h2 h3 h4
    rcases h4 with h4 | h4
    · simp [grantChoice, h1, h2, h3, h4]
    · cases h5 : eligible s.control.mode s.port.waiting .drain <;>
        simp [grantChoice, h1, h2, h3, h4, h5]
  · simp only [asks] at h1 h2 h3 h4
    rcases h4 with h4 | h4
    · simp [grantChoice, h1, h2, h3, h4]
    · cases h5 : eligible s.control.mode s.port.waiting .host <;>
        simp [grantChoice, h1, h2, h3, h4, h5]
  · have hn : grantChoice s.control.mode s.port.waiting s.port.marker = none := by
      simp only [asks] at h
      simp [grantChoice, h]
    rw [decideGrant, hp, hn]

end Sys2Proof.Machine

/-! ## The host port's own events (chapter 7, R40) -/

namespace Sys2Proof.Machine

open Sys2Proof

set_option Elab.async false

/-! ### The access in progress, by its stage -/

section Access

variable {s : State} {op : BusOp} {st : Stage} {rel : Bool}

theorem setStage_some (st' : Stage) (h : s.host.access = some ⟨op, st, rel⟩) :
    setStage st' s = { s with host := { s.host with access := some ⟨op, st', rel⟩ } } := by
  simp [setStage, h]

/-- The outcome of an access that the host still waits on is its answer (R119). -/
theorem answerHost_waiting (ans : Answer) (h : s.host.access = some ⟨op, st, false⟩) :
    answerHost ans s =
      { s with host := { s.host with access := some ⟨op, .answered ans, false⟩ } } := by
  simp [answerHost, h]

/-- The outcome of a released access ends it without an answer (R120). -/
theorem answerHost_released (ans : Answer) (h : s.host.access = some ⟨op, st, true⟩) :
    answerHost ans s = { s with host := { s.host with access := none } } := by
  simp [answerHost, h]

/-- The notices of an ERR answer (R44, R45). -/
theorem countRejected_eq (s : State) :
    countRejected s = { s with status := rejectedStatus s.status } := by
  have hsat : saturate s.status.rejected = (rejectedStatus s.status).rejected := by
    unfold saturate rejectedStatus
    dsimp only
    split
    · next h => exact h
    · rfl
  unfold countRejected setCause
  rw [hsat]
  rfl

theorem rejectWrite_waiting (h : s.host.access = some ⟨op, st, false⟩) :
    rejectWrite s = { s with
      host := { s.host with access := some ⟨op, .answered .err, false⟩ }
      status := rejectedStatus s.status } := by
  rw [rejectWrite, countRejected_eq, answerHost_waiting _ (s := { s with status := rejectedStatus s.status }) h]

theorem rejectWrite_released (h : s.host.access = some ⟨op, st, true⟩) :
    rejectWrite s = { s with
      host := { s.host with access := none }
      status := rejectedStatus s.status } := by
  rw [rejectWrite, countRejected_eq, answerHost_released _ (s := { s with status := rejectedStatus s.status }) h]

end Access

/-! ### The bus (R118) -/

/-- A deselected part sees no strobe. -/
theorem busOp_deselected {p : Pins} (h : p.hcs = true) : busOp p = none := by
  simp [busOp, h]

/-- No access is on the bus with both strobes at one level. -/
theorem busOp_strobesEqual {p : Pins} (h : p.hoe = p.hwe) : busOp p = none := by
  unfold busOp
  split
  · next h1 h2 => simp_all
  · next h1 h2 => simp_all
  · rfl

theorem busOp_read {p : Pins} (hc : p.hcs = false) (ho : p.hoe = false) (hw : p.hwe = true) :
    busOp p = some (.read p.ha) := by
  simp [busOp, hc, ho, hw]

/-- An access begins with the operation on the bus (R118). -/
theorem settleHost_begins {s : State} {op : BusOp} (hpor : s.porAsserted = false)
    (hrst : s.host.rstHigh = true) (hacc : s.host.access = none) (hbus : busOp s.pins = some op) :
    settleHost s = beginAccess op s := by
  simp [settleHost, hpor, hrst, hacc, hbus]

/-! ### Reads outside the status line (R121, R129) -/

section Routes

variable {s : State} {a : Addr} (hm : s.control.mode ≠ .startup) (hl : inStatusLine a = false)

include hm hl

/-- An address that the queue holds is answered with the current holder's byte (R23). -/
theorem routeRead_held {b : Byte} (h : overlay s.queue a = some b) :
    routeRead a s = answerHost (.data b) s := by
  rw [routeRead, if_neg hm, hl]
  simp [h]

/-- An address that the queue does not hold makes a HOST read request (R121). -/
theorem routeRead_missed (h : overlay s.queue a = none) :
    routeRead a s = hostRequest (.read a) s := by
  rw [routeRead, if_neg hm, hl]
  simp [h]

end Routes

/-- A HOST request is held back while a cancelled access still runs (R129). -/
theorem hostRequest_heldBack {s : State} (op : BusOp) (h : s.host.orphan = true) :
    hostRequest op s = setStage .onPort s := by
  simp [hostRequest, h]

/-- A HOST request that reaches a quiet port and passes the gate is granted (R104). -/
theorem hostRequest_quiet {s : State} {op : BusOp} {st : Stage} (ho : s.host.orphan = false)
    (hacc : s.host.access = some ⟨op, st, false⟩) (hq : portQuiet s)
    (hg : gateOpen s.control.mode .host op = true) :
    hostRequest op s = { s with
      host := hostAt s.host op .onPort
      port := quietGrant s .host op .host
      memory := grantMemory s op } := by
  rw [hostRequest, setStage_some _ hacc]
  dsimp only
  rw [if_neg (by simp [ho])]
  exact portRequest_quiet (s := { s with host := hostAt s.host op .onPort }) .host op hq hg

/-! ### RST# (R128, R129) -/

/-- RST# ends an access that is not ON_PORT (Table 7-4). -/
theorem resetHost_offPort {s : State} (h : ∀ op rel, s.host.access ≠ some ⟨op, .onPort, rel⟩) :
    resetHost s = { s with
      host := ⟨none, none, false, s.host.orphan⟩
      status := { s.status with snapshotValid := false } } := by
  unfold resetHost
  split
  · next hacc => exact absurd hacc (h _ _)
  · simp

section OnPort

variable {s : State} {op : BusOp} {rel : Bool} (h : s.host.access = some ⟨op, .onPort, rel⟩)

include h

/-- RST# withdraws a request that is not granted (Table 7-4). -/
theorem resetHost_ungranted (hu : s.port.waiting.host ≠ none ∨ s.host.orphan = true) :
    resetHost s = { s with
      host := ⟨none, none, false, s.host.orphan⟩
      port := { s.port with waiting := { s.port.waiting with host := none } }
      status := { s.status with snapshotValid := false } } := by
  have hun : hostUngranted s = true := by
    rcases hu with hu | hu
    · simpa [hostUngranted, Waiting.get, Option.isSome_iff_ne_none] using .inl hu
    · simp [hostUngranted, hu]
  simp [resetHost, h, hun, portWithdraw, Waiting.put]

/-- A granted access runs on without its host (Table 7-4). -/
theorem resetHost_granted (hw : s.port.waiting.host = none) (ho : s.host.orphan = false) :
    resetHost s = { s with
      host := ⟨none, none, false, true⟩
      status := { s.status with snapshotValid := false } } := by
  have hun : hostUngranted s = false := by simp [hostUngranted, Waiting.get, hw, ho]
  simp [resetHost, h, hun]

end OnPort

/-- Settles O16. -/
theorem rstFallingEndsAccess : Obligations.RstFallingEndsAccess := by
  intro s hpor
  have hexec : exec .rstFalling s =
      .next (resetHost { s with pins := { s.pins with rst := false } }) := by
    rw [exec_rstFalling, hpor]; rfl
  rw [hexec]
  refine ⟨fun h => ?_, fun op rel h => ⟨fun hu => ?_, fun hw ho => ?_⟩⟩
  · rw [resetHost_offPort (s := { s with pins := { s.pins with rst := false } }) h]
  · rw [resetHost_ungranted (s := { s with pins := { s.pins with rst := false } }) h hu]
  · rw [resetHost_granted (s := { s with pins := { s.pins with rst := false } }) h hw ho]

/-- The state after RST# rises: the pin and the recorded level (R129). -/
def rstRisen (s : State) : State := { s with
  pins := { s.pins with rst := true }, host := { s.host with rstHigh := true } }

theorem exec_rstRising {s : State} (hpor : s.porAsserted = false) :
    exec .rstRising s = .next (settleHost (rstRisen s)) := by
  show Host.Outcome.next (if s.porAsserted then _ else _) = _
  rw [if_neg (by simp [hpor])]
  rfl

/-- Pins that carry a write already are as the write's command drives them. -/
theorem lowerWrite_carried {p : Pins} (hc : p.hcs = false) (hw : p.hwe = false) :
    ({ p with rst := true, hwe := true } : Pins).lowerWrite p.ha p.hd = { p with rst := true } := by
  cases p; simp_all [Pins.lowerWrite]

/-- Pins that carry a read already are as the read's command drives them. -/
theorem lowerRead_carried {p : Pins} (hc : p.hcs = false) (ho : p.hoe = false) :
    ({ p with rst := true, hoe := true } : Pins).lowerRead p.ha = { p with rst := true } := by
  cases p; simp_all [Pins.lowerRead]

/-- A host command is a drive of the bus (R118). -/
theorem exec_hostWrite (a : Addr) (b : Byte) (s : State) :
    exec (.hostWrite a b) s = .next (settleHost { s with pins := s.pins.lowerWrite a b }) := rfl

theorem exec_hostRead (a : Addr) (s : State) :
    exec (.hostRead a) s = .next (settleHost { s with pins := s.pins.lowerRead a }) := rfl

/-- Settles O17. -/
theorem rstRisingReopensPort : Obligations.RstRisingReopensPort := by
  intro s hpor hacc
  rw [exec_rstRising hpor]
  refine ⟨fun h => ?_, fun hc ho hw => ?_, fun hc ho hw => ?_⟩
  · have hbus : busOp (rstRisen s).pins = none := by
      rcases h with h | h
      · exact busOp_deselected h
      · exact busOp_strobesEqual h
    rw [settleHost_noStrobe hbus]; rfl
  · rw [exec_hostWrite]
    dsimp only
    rw [lowerWrite_carried hc hw]
    rfl
  · intro begun
    have hroute : settleHost (rstRisen s) = routeRead s.pins.ha (begun (.waiting .startUp)) := by
      rw [settleHost_begins (s := rstRisen s) hpor rfl hacc (busOp_read hc ho hw)]; rfl
    refine ⟨?_, fun hm => ?_, fun hm hl => ⟨fun b hb => ?_, fun hb ho' => ?_, fun hb ho' hq => ?_⟩⟩
    · rw [exec_hostRead]
      dsimp only
      rw [lowerRead_carried hc ho]
      rfl
    all_goals rw [hroute]
    · rw [routeRead_startup (s := begun _) _ hm]; rfl
    · rw [routeRead_held (s := begun _) hm hl hb]; rfl
    · rw [routeRead_missed (s := begun _) hm hl hb, hostRequest_heldBack (s := begun _) _ ho']; rfl
    · rw [routeRead_missed (s := begun _) hm hl hb,
        hostRequest_quiet (s := begun _) ho' rfl hq (by simp [gateOpen, BusOp.isRead])]
      rfl

/-- Settles O18. -/
theorem hostReadRoutes : Obligations.HostReadRoutes := by
  intro s a hr hl
  have hexec : exec (.hostRead a) s = .next (routeRead a (readBegun a s)) := by
    show Host.Outcome.next (driveRead a s) = _
    rw [driveRead_eq_routeRead a hr]
  rw [hexec]
  refine ⟨fun b hm hb => ?_, fun hm hb hq => ?_, fun hm => ?_⟩
  · rw [routeRead_held (s := readBegun a s) hm hl hb]; rfl
  · rw [routeRead_missed (s := readBegun a s) hm hl hb,
      hostRequest_quiet (s := readBegun a s) hr.2.2.2.1 rfl hq (by simp [gateOpen, BusOp.isRead])]
    rfl
  · rw [routeRead_startup (s := readBegun a s) _ hm]; rfl

/-! ### The host's return of a line (R119, R120) -/

theorem exec_hostAccessEnd (l : HostLine) (s : State) :
    exec (.hostAccessEnd l) s = .next (raiseLine l s) := rfl

theorem exec_earlyRelease (l : HostLine) (s : State) :
    exec (.earlyRelease l) s = .next (raiseLine l s) := rfl

section Lines

variable {s : State} {op : BusOp} {st : Stage} {rel : Bool} {l : HostLine}
  (h : s.host.access = some ⟨op, st, rel⟩) (hl : endsAccess l op = true)

include h hl

/-- A line that ends the access, answered, leaves none; a new one begins only with one strobe low (R119). -/
theorem raiseLine_answered {ans : Answer} (hst : st = .answered ans)
    (hbus : busOp (s.pins.raise l) = none) :
    raiseLine l s = { s with
      pins := s.pins.raise l, host := { s.host with access := none } } := by
  subst hst
  unfold raiseLine
  simp only [h, hl, if_true]
  rw [settleHost_noStrobe (by exact hbus)]
  rfl

/-- A line that ends the access before the answer marks it released (R120). -/
theorem raiseLine_unanswered (hst : ∀ ans, st ≠ .answered ans) :
    raiseLine l s = { s with
      pins := s.pins.raise l, host := { s.host with access := some ⟨op, st, true⟩ } } := by
  have hend : endOrRelease ⟨op, st, rel⟩ { s with pins := s.pins.raise l } = { s with
      pins := s.pins.raise l, host := { s.host with access := some ⟨op, st, true⟩ } } := by
    cases st with
    | answered ans => exact absurd rfl (hst ans)
    | _ => rfl
  unfold raiseLine
  simp only [h, hl, if_true, hend]
  exact settleHost_busy rfl

end Lines

theorem endsAccess_hoe {op : BusOp} (h : op.isRead = true) : endsAccess .hoe op = true := by
  cases op with
  | read a => rfl
  | write a b => cases h

theorem endsAccess_hwe {op : BusOp} (h : op.isRead = false) : endsAccess .hwe op = true := by
  cases op with
  | read a => cases h
  | write a b => rfl

/-- An access that is in progress and not answered keeps WAIT asserted (R120). -/
theorem waitPin_unanswered {s : State} {op : BusOp} {st : Stage} {rel : Bool}
    (h : s.host.access = some ⟨op, st, rel⟩) (hst : ∀ ans, st ≠ .answered ans) :
    s.waitPin = true := by
  have hu : s.unanswered = true := by
    unfold State.unanswered
    rw [h]
    cases st with
    | answered ans => exact absurd rfl (hst ans)
    | _ => rfl
  simp [State.waitPin, hu]

/-- Settles O27. -/
theorem hostEndsOrReleasesAccess : Obligations.HostEndsOrReleasesAccess := by
  intro s op st rel h
  refine ⟨fun ⟨ans, hst⟩ => ⟨fun hr hw => ?_, fun hr ho => ?_, ?_⟩,
    fun hst => ⟨fun hr => ?_, fun hr => ?_, ?_⟩⟩
  · rw [exec_hostAccessEnd, raiseLine_answered h (endsAccess_hoe hr) hst
      (busOp_strobesEqual (p := s.pins.raise .hoe) hw.symm)]
    rfl
  · rw [exec_hostAccessEnd, raiseLine_answered h (endsAccess_hwe hr) hst
      (busOp_strobesEqual (p := s.pins.raise .hwe) ho)]
    rfl
  · rw [exec_hostAccessEnd, raiseLine_answered (l := .hcs) h rfl hst (busOp_deselected rfl)]
    exact ⟨_, rfl, rfl, rfl, rfl, rfl, rfl, rfl⟩
  · rw [exec_earlyRelease, raiseLine_unanswered h (endsAccess_hoe hr) hst]; rfl
  · rw [exec_earlyRelease, raiseLine_unanswered h (endsAccess_hwe hr) hst]; rfl
  · rw [exec_earlyRelease, raiseLine_unanswered (l := .hcs) h rfl hst]
    exact ⟨_, rfl, rfl, waitPin_unanswered rfl hst, rfl, rfl, rfl⟩

/-! ### The stall timer (R40) -/

/-- STALL_EXPIRY at a stalled write: the timer stops and the write is answered ERR (R40). -/
theorem exec_stallExpiry {s : State} {op : BusOp} {k : StallKind} {rel : Bool} {due : Nat}
    (ht : s.host.stallTimer = some due) (h : s.host.access = some ⟨op, .stalled k, rel⟩) :
    exec .stallExpiry s = .next (settleHost (rejectWrite (stopStall (s.reach due)))) := by
  have hst : s.stalled = true := by simp [State.stalled, h]
  show execStallExpiry s = _
  simp [execStallExpiry, ht, hst]

/-- Settles O28. -/
theorem stallExpiryRejectsWrite : Obligations.StallExpiryRejectsWrite := by
  intro s op k due ht
  refine ⟨fun h => ?_, fun h ho hw => ?_⟩
  · rw [exec_stallExpiry ht h, rejectWrite_waiting (s := stopStall (s.reach due)) h,
      settleHost_busy rfl]
    rfl
  · rw [exec_stallExpiry ht h, rejectWrite_released (s := stopStall (s.reach due)) h]
    exact congrArg Host.Outcome.next (settleHost_noStrobe (busOp_strobesEqual (ho.trans hw.symm)))

end Sys2Proof.Machine

/-! ## What the host port's decisions keep

A change of mode has the access in progress decided anew (R38, R39, R42, R169). Whatever becomes of it, these
fields stay. -/

namespace Sys2Proof.Machine

open Sys2Proof

set_option Elab.async false

/-- The engine up to the claim that an append in EMPTY_WAIT makes (R93). -/
def wakeable (e : DrainEngine) : DrainEngine :=
  { e with state := if e.state = .emptyWait then .writing else e.state, outstanding := none }

/-- What the host port's decisions leave of the status unit, the engine and the monitor. -/
structure Kept where
  safety   : Safety
  unmarked : Bool
  episodes : Byte
  engine   : DrainEngine
  monitor  : MonitorState
  timer    : Option SampleTimer

def kept (s : State) : Kept :=
  ⟨s.status.safety, s.status.unmarked, s.status.episodes, wakeable s.engine, s.monitor.state,
    s.monitor.timer⟩

section Kept

variable (s : State) (a : Addr) (b : Byte) (merge : Bool) (op : BusOp)

theorem kept_congr {s t : State} (hs : t.status = s.status) (he : t.engine = s.engine)
    (hm : t.monitor = s.monitor) : kept t = kept s := by
  rw [kept, kept, hs, he, hm]

@[simp] theorem portRequest_kept (r : Requester) : kept (portRequest r op s) = kept s :=
  kept_congr (by simp) (by simp) (by simp)

@[simp] theorem decideGrant_kept : kept (decideGrant s) = kept s :=
  kept_congr (by simp) (by simp) (by simp)

@[simp] theorem portWithdraw_kept (r : Requester) : kept (portWithdraw r s) = kept s := rfl

@[simp] theorem setCause_kept (c : Cause) : kept (setCause c s) = kept s := rfl

@[simp] theorem takeAck_kept : kept (takeAck b s) = kept s := rfl

@[simp] theorem countDeferred_kept : kept (countDeferred s) = kept s := rfl

@[simp] theorem countMerged_kept : kept (countMerged s) = kept s := rfl

@[simp] theorem countDiscarded_kept : kept (countDiscarded s) = kept s := rfl

@[simp] theorem countRejected_kept : kept (countRejected s) = kept s := rfl

@[simp] theorem takeFree_kept : kept s.takeFree = kept s := rfl

@[simp] theorem stopStall_kept : kept (stopStall s) = kept s := rfl

@[simp] theorem setStage_kept (st : Stage) : kept (setStage st s) = kept s := rfl

@[simp] theorem answerHost_kept (ans : Answer) : kept (answerHost ans s) = kept s := by
  unfold answerHost; split <;> rfl

@[simp] theorem rejectWrite_kept : kept (rejectWrite s) = kept s := by simp [rejectWrite]

@[simp] theorem beginStall_kept (k : StallKind) : kept (beginStall k s) = kept s := by
  unfold beginStall
  dsimp only
  split
  · simp
  · rfl

/-- A claim in EMPTY_WAIT is all that the engine does (R93). -/
theorem claimHead_kept (h : s.engine.state = .emptyWait) : kept (claimHead s) = kept s := by
  unfold claimHead
  split
  · simp [kept, wakeable, h]
  · rw [portRequest_kept]
    simp [kept, wakeable, h]

@[simp] theorem wakeEngine_kept : kept (wakeEngine s) = kept s := by
  unfold wakeEngine
  split
  · next h => exact claimHead_kept s h.1
  · rfl

/-- A judged descriptor changes the monitor's runs alone (R158, R159). -/
@[simp] theorem judgeDescriptor_kept : kept (judgeDescriptor s) = kept s := by
  unfold judgeDescriptor; split <;> rfl

@[simp] theorem advanceReading_kept : kept (advanceReading s) = kept s := by
  unfold advanceReading
  dsimp only
  split
  · rw [portRequest_kept]; rfl
  · rfl

@[simp] theorem beginReading_kept : kept (beginReading s) = kept s := by
  unfold beginReading; rw [advanceReading_kept]; rfl

@[simp] theorem finishReading_kept (n : Nat) : kept (finishReading n s) = kept s := by
  induction n generalizing s with
  | zero => rfl
  | succ n ih =>
    have hidle : kept { judgeDescriptor s with
        descriptor := { (judgeDescriptor s).descriptor with reading := false, held := none } } =
        kept s := judgeDescriptor_kept s
    unfold finishReading
    split
    · dsimp only
      split
      · split
        · rw [ih, beginReading_kept, hidle]
        · exact hidle
      · exact hidle
    · rfl

@[simp] theorem generationNotice_kept : kept (generationNotice b s) = kept s := by
  unfold generationNotice
  split
  · rfl
  · split
    · simp
    · rfl

@[simp] theorem acceptQueued_kept : kept (acceptQueued a b s) = kept s := by
  unfold acceptQueued; dsimp only; split <;> simp

@[simp] theorem appendTaken_kept : kept (appendTaken a b s) = kept s := by
  unfold appendTaken
  split
  · split <;> simp
  · simp

theorem takeIntoQueue_kept {t : State} (h : takeIntoQueue a b merge s = some t) :
    kept t = kept s := by
  rcases takeIntoQueue_cases a b merge s with ⟨q, -, ht⟩ | ⟨q, -, ht⟩ | ⟨-, -, ht⟩
  · cases ht.symm.trans h; rw [acceptQueued_kept, countMerged_kept]; rfl
  · cases ht.symm.trans h; rw [appendTaken_kept]; rfl
  · cases ht.symm.trans h

@[simp] theorem queueWrite_kept : kept (queueWrite a b merge s) = kept s := by
  unfold queueWrite
  split
  · next h => exact takeIntoQueue_kept s a b merge h
  · simp

@[simp] theorem hostRequest_kept : kept (hostRequest op s) = kept s := by
  unfold hostRequest; dsimp only; split <;> simp

@[simp] theorem passThrough_kept : kept (passThrough a b s) = kept s := hostRequest_kept s _

@[simp] theorem decideWindow_kept : kept (decideWindow a b s) = kept s := by
  unfold decideWindow; split <;> simp

@[simp] theorem decideRegion_kept (p : Policy) : kept (decideRegion p merge a b s) = kept s := by
  unfold decideRegion discardWrite; split <;> simp

@[simp] theorem decideWrite_kept : kept (decideWrite a b s) = kept s := by
  unfold decideWrite
  (repeat' split) <;> simp

@[simp] theorem readStatus_kept_fields (n : Offset) : kept (readStatus n s).2 = kept s := by
  unfold readStatus; dsimp only; split <;> rfl

@[simp] theorem routeAccess_kept : kept (routeAccess s) = kept s := by
  unfold routeAccess routeRead
  (repeat' split) <;> simp

@[simp] theorem handOver_kept : kept (handOver op s) = kept s := by
  unfold handOver
  (repeat' split) <;> simp

@[simp] theorem settleHost_kept : kept (settleHost s) = kept s := by
  rcases settleHost_cases s with h | ⟨op, -, -, -, -, h⟩
  · rw [h]
  · rw [h, beginAccess, routeAccess_kept, handOver_kept]; rfl

@[simp] theorem decideAnew_kept : kept (decideAnew s) = kept s := by simp [decideAnew]

@[simp] theorem handOverAtStart_kept : kept (handOverAtStart op s) = kept s := by
  unfold handOverAtStart
  (repeat' split) <;> simp

@[simp] theorem hostModeChanged_kept : kept (hostModeChanged s) = kept s := by
  unfold hostModeChanged
  (repeat' split) <;> simp

@[simp] theorem hostReloadEnded_kept : kept (hostReloadEnded s) = kept s := by
  unfold hostReloadEnded
  (repeat' split) <;> simp

end Kept

/-- What `kept` says of the status unit. -/
theorem kept_status {s t : State} (h : kept t = kept s) :
    t.status.safety = s.status.safety ∧ t.status.unmarked = s.status.unmarked ∧
      t.status.episodes = s.status.episodes :=
  ⟨congrArg Kept.safety h, congrArg Kept.unmarked h, congrArg Kept.episodes h⟩

/-- What `kept` says of the engine: it stays but in EMPTY_WAIT, where it may be WRITING. -/
theorem kept_engine {s t : State} (h : kept t = kept s) : wakeable t.engine = wakeable s.engine :=
  congrArg Kept.engine h

/-- What `kept` says of the engine's state: a stopped engine stays stopped. -/
theorem kept_engine_state {s t : State} (h : kept t = kept s) (he : s.engine.state ≠ .emptyWait)
    (hw : s.engine.state ≠ .writing) : t.engine.state = s.engine.state := by
  have hst : (wakeable t.engine).state = (wakeable s.engine).state :=
    congrArg DrainEngine.state (kept_engine h)
  simp only [wakeable, he, if_false] at hst
  split at hst
  · exact absurd hst.symm hw
  · exact hst

/-- What `kept` says of the ramp level. -/
theorem kept_rampLevel {s t : State} (h : kept t = kept s) :
    t.engine.rampLevel = s.engine.rampLevel :=
  congrArg (fun k => k.engine.rampLevel) h

end Sys2Proof.Machine

/-! ## Changes of mode (chapter 3) -/

namespace Sys2Proof.Machine

open Sys2Proof

set_option Elab.async false

/-! ### A mode entry with its status write (R49, R143) -/

/-- No access in progress, nothing to decide anew (R38, R39). -/
theorem hostModeChanged_none {s : State} (h : s.host.access = none) : hostModeChanged s = s := by
  simp [hostModeChanged, h]

/-- A request with the writer IDLE begins the write (R143). -/
theorem requestStatusWrite_idle {s : State} (hm : s.control.mode ≠ .hold)
    (hw : s.writer.state = .idle) : requestStatusWrite s = beginStatusWrite s := by
  rcases requestStatusWrite_cases s with ⟨h, -⟩ | ⟨-, -, h⟩ | ⟨-, ⟨n, h⟩, -⟩
  · exact absurd h hm
  · exact h
  · rw [hw] at h; cases h

/-- A request with a write in flight is left pending (R143). -/
theorem requestStatusWrite_inFlight {s : State} {n : Offset} (hm : s.control.mode ≠ .hold)
    (hw : s.writer.state = .writing n) :
    requestStatusWrite s = { s with writer := { s.writer with pending := true } } := by
  rcases requestStatusWrite_cases s with ⟨h, -⟩ | ⟨-, h, -⟩ | ⟨-, -, h⟩
  · exact absurd h hm
  · rw [hw] at h; cases h
  · exact h

/-- The beginning of a write that the controller alone awaits (R49). -/
theorem reportBegun_awaited {s : State} {k : AwaitedKind} {f : Bool}
    (hc : s.control.awaited = some ⟨k, f⟩) (he : s.engine.awaited = .nothing) :
    reportBegun s = { s with control := { s.control with awaited := some ⟨k, true⟩ } } := by
  have hen : (if s.engine.awaited = .requested then StatusAwait.begun else s.engine.awaited) =
      s.engine.awaited := by simp [he]
  rw [reportBegun, hc, hen]
  rfl

/-- The request for an awaited write with the writer IDLE and a quiet port begins it with the grant of its
byte 0 (R49, R143). -/
theorem requestStatusWrite_awaited {s : State} {k : AwaitedKind} {f : Bool} (hq : portQuiet s)
    (hm : s.control.mode ≠ .hold) (hw : s.writer.state = .idle)
    (hc : s.control.awaited = some ⟨k, f⟩) (he : s.engine.awaited = .nothing) :
    requestStatusWrite s = { s with
      control := { s.control with awaited := some ⟨k, true⟩ }
      writer := { s.writer with state := .writing 0#4, image := s.shadow, record := .started }
      port := quietGrant s .status (.write 0xFFF00#20 (s.shadow.byte 0#4)) s.port.marker
      memory := grantMemory s (.write 0xFFF00#20 (s.shadow.byte 0#4)) } := by
  rw [requestStatusWrite_idle hm hw, beginStatusWrite_quiet hq hm, reportBegun_awaited hc he]

/-- The first byte's grant leaves every other byte (R114). -/
theorem statusGrant_frame (s : State) (b : Byte) (a : Addr)
    (h : a ≠ 0xFFF00#20 ∨ s.pins.mrdy = false) :
    memRead (grantMemory s (.write 0xFFF00#20 b)) a = memRead s.memory a :=
  memRead_grantMemory s _ a (.inr h)

/-! ### The end of an event (R71, R106) -/

theorem reaim_samePeriod {s : State} {m : Mode} (h : samplePeriod m = samplePeriod s.control.mode) :
    reaim m s = s := by
  unfold reaim
  split
  · rfl
  · rw [if_pos h]

/-- A change of mode between modes of one sample period, with the port busy, has nothing more to do. -/
theorem afterEvent_busy {s : State} {m : Mode} {acc : PortAccess}
    (h : samplePeriod m = samplePeriod s.control.mode) (hb : s.port.access = some acc) :
    afterEvent m s = s := by
  unfold afterEvent
  split
  · rfl
  · rw [reaim_samePeriod h, decideGrant_busy hb]

/-- On leaving HOLD the next sample is due 125 µs after the last, or now (R71). -/
theorem afterEvent_leavesHold {s : State} {acc : PortAccess} {timer : SampleTimer}
    (hm : s.control.mode ≠ .hold) (ht : s.monitor.timer = some timer)
    (hb : s.port.access = some acc) :
    afterEvent .hold s = { s with monitor := { s.monitor with
      timer := some ⟨timer.last, max s.now (timer.last + 125)⟩ } } := by
  have hp : samplePeriod s.control.mode = 125 := by
    cases h : s.control.mode with
    | hold => exact absurd h hm
    | _ => rfl
  have hre : reaim .hold s = { s with monitor := { s.monitor with
      timer := some ⟨timer.last, max s.now (timer.last + 125)⟩ } } := by
    unfold reaim
    rw [ht]
    rw [hp]
    rfl
  rw [afterEvent, if_neg hm, hre]
  exact decideGrant_busy hb

/-! ### HREQ (R48, R54, R59) -/

section Hreq

variable {s : State} (hpor : s.porAsserted = false)

include hpor

theorem exec_hreqRising : exec .hreqRising s = .next (afterEvent s.control.mode
    (takeHreqRising { s with pins := { s.pins with hreq := true } })) := by
  show Host.Outcome.next (if s.porAsserted then _ else _) = _
  rw [if_neg (by simp [hpor])]

theorem exec_hreqFalling : exec .hreqFalling s = .next (afterEvent s.control.mode
    (takeHreqFalling { s with pins := { s.pins with hreq := false } })) := by
  show Host.Outcome.next (if s.porAsserted then _ else _) = _
  rw [if_neg (by simp [hpor])]

end Hreq

theorem evaluateExit_stays {s : State} (h : s.control.mode ≠ .hold ∨ exitCondition s = false) :
    evaluateExit s = s := by
  unfold evaluateExit
  rw [if_neg]
  rintro ⟨hm, he⟩
  rcases h with h | h
  · exact h hm
  · rw [h] at he; cases he

/-- Settles O32. -/
theorem hreqEdgeOnlyRecorded : Obligations.HreqEdgeOnlyRecorded := by
  intro s hpor
  refine ⟨fun hm => ?_, fun h => ?_⟩
  · have hrec : takeHreqRising { s with pins := { s.pins with hreq := true } } = { s with
        pins := { s.pins with hreq := true }, control := { s.control with hreq := true } } := by
      unfold takeHreqRising
      rcases hm with hm | hm | hm <;> simp [hm]
    rw [exec_hreqRising hpor, hrec]
    exact congrArg Host.Outcome.next (afterEvent_same rfl)
  · have hrec : takeHreqFalling { s with pins := { s.pins with hreq := false } } = { s with
        pins := { s.pins with hreq := false }, control := { s.control with hreq := false } } := by
      refine evaluateExit_stays ?_
      rcases h with h | h
      · exact .inl h
      · exact .inr (by simp [exitCondition, h])
    rw [exec_hreqFalling hpor, hrec]
    exact congrArg Host.Outcome.next (afterEvent_same rfl)

/-- Settles O30: the state in which the HELD write is requested is written out once. -/
theorem hreqRisingEntersEntering : Obligations.HreqRisingEntersEntering := by
  intro s hpor hm hw he hacc hq u
  let y : State := awaitWrite .held (setSafety .held (setMode .entering (beginEpisode .forced
    { s with pins := { s.pins with hreq := true }, control := { s.control with hreq := true } })))
  have htake : takeHreqRising { s with pins := { s.pins with hreq := true } } =
      hostModeChanged (requestStatusWrite y) := by
    simp only [takeHreqRising, hm]; rfl
  have hreq := requestStatusWrite_awaited (s := y) (k := .held) (f := false) hq
    (show Mode.entering ≠ .hold by decide) hw rfl he
  rw [exec_hreqRising hpor, htake, hreq, hostModeChanged_none (by exact hacc), hm]
  exact ⟨_, congrArg Host.Outcome.next (afterEvent_busy rfl rfl), statusGrant_frame y _⟩

/-- Settles O33: leaving HOLD, by the queue. -/
theorem hreqFallingLeavesHold : Obligations.HreqFallingLeavesHold := by
  intro s timer hpor hm hg ht hw he hacc hq u
  let x : State := { s with
    pins := { s.pins with hreq := false }, control := { s.control with hreq := false } }
  have hexit : x.control.mode = .hold ∧ exitCondition x = true := ⟨hm, by simp [exitCondition, x, hg]⟩
  have htake : takeHreqFalling { s with pins := { s.pins with hreq := false } } =
      if s.queue = [] then enterClosing x else enterDrain x := by
    show evaluateExit x = _
    rw [evaluateExit, if_pos hexit]
  rw [exec_hreqFalling hpor, htake, hm]
  by_cases hqe : s.queue = []
  · let y : State := awaitWrite .final (setSafety .clean (setMode .closing x))
    have henter : enterClosing x = hostModeChanged (requestStatusWrite y) := by
      have hsafe : monitorSafety x.monitor.state = .clean := by
        show monitorSafety s.monitor.state = _
        rw [hg]; rfl
      have hleave (v : State) : leaveDrain x.control.mode v = v := by
        rw [hexit.1]; rfl
      unfold enterClosing
      dsimp only
      rw [hleave, hsafe]
    have hreq := requestStatusWrite_awaited (s := y) (k := .final) (f := false) hq
      (show Mode.closing ≠ .hold by decide) hw rfl he
    rw [if_pos hqe, henter, hreq, hostModeChanged_none (by exact hacc), afterEvent_leavesHold (timer := timer)]
    · simp only [u, if_pos hqe]
      exact ⟨_, rfl, statusGrant_frame y _⟩
    · exact show Mode.closing ≠ .hold by decide
    · exact ht
    · rfl
  · let y : State := awaitWrite .draining { setSafety .draining (setMode .drain x) with
      engine := { x.engine with rampLevel := 7 } }
    have henter : enterDrain x = hostModeChanged (requestStatusWrite y) := rfl
    have hreq := requestStatusWrite_awaited (s := y) (k := .draining) (f := false) hq
      (show Mode.drain ≠ .hold by decide) hw rfl he
    rw [if_neg hqe, henter, hreq, hostModeChanged_none (by exact hacc), afterEvent_leavesHold (timer := timer)]
    · simp only [u, if_neg hqe]
      exact ⟨_, rfl, statusGrant_frame y _⟩
    · exact show Mode.drain ≠ .hold by decide
    · exact ht
    · rfl

/-! ### The queue-empty report (R65) -/

theorem exec_queueEmptyReport {s : State} {n : Nat} (h : s.queueEmptyReports = n + 1) :
    exec .queueEmptyReport s = .next (afterEvent s.control.mode (takeQueueEmpty s)) := by
  show execQueueEmptyReport s = _
  rw [execQueueEmptyReport, if_neg (by omega)]

/-- The safety state that goes with the monitor state (R52, R65). -/
theorem monitorSafety_eq (m : MonitorState) :
    monitorSafety m = if m = .warned then .atRisk else .clean := by
  cases m <;> rfl

/-- An engine with no write granted is released and stopped (R100). -/
theorem stopEngine_released {s : State}
    (h : s.engine.state = .emptyWait ∨ s.engine.state = .wait ∨ s.engine.state = .pause) :
    stopEngine s = releaseAndStop s := by
  unfold stopEngine
  rcases h with h | h | h <;> rw [h]

/-- With no entry held there is no head to release (R20). -/
theorem releaseAndStop_empty {s : State} (h : s.queue = []) :
    releaseAndStop s = { s with engine := s.engine.stop } := by
  rw [releaseAndStop, h, releaseHead, ← h]

/-- Settles O34. -/
theorem queueEmptyReportCloses : Obligations.QueueEmptyReportCloses := by
  intro s n hn
  rw [exec_queueEmptyReport hn]
  refine ⟨fun h => ?_, ?_⟩
  · have hno : ¬ (s.control.mode = .drain ∧ s.queue = []) := by
      rintro ⟨hm, hqe⟩
      rcases h with h | h
      · exact h hm
      · exact h hqe
    rw [takeQueueEmpty, if_neg hno, hn]
    exact congrArg Host.Outcome.next (afterEvent_same rfl)
  · intro hm hqe hw hst hacc hq u
    let x : State := { s with queueEmptyReports := s.queueEmptyReports - 1 }
    let v : State := setSafety (monitorSafety s.monitor.state) (setMode .closing x)
    let y : State := awaitWrite .final { v with engine := s.engine.stop }
    have henter : takeQueueEmpty s = hostModeChanged (requestStatusWrite y) := by
      have hleave : leaveDrain x.control.mode v = { v with engine := s.engine.stop } := by
        have hx : x.control.mode = .drain := hm
        rw [leaveDrain, if_pos hx, stopEngine_released (s := v) (hst.imp_right .inl),
          releaseAndStop_empty (s := v) hqe]
        rfl
      rw [takeQueueEmpty, if_pos ⟨hm, hqe⟩]
      show enterClosing x = _
      unfold enterClosing
      dsimp only
      rw [show setSafety (monitorSafety x.monitor.state) (setMode .closing x) = v from rfl, hleave]
    have hreq := requestStatusWrite_awaited (s := y) (k := .final) (f := false) hq
      (show Mode.closing ≠ .hold by decide) hw rfl rfl
    have hy : y = { u with control := { u.control with awaited := some ⟨.final, false⟩ } } := by
      simp only [y, v, x, u, hn, monitorSafety_eq]
      rfl
    rw [henter, hreq, hostModeChanged_none (by exact hacc), hm, hy]
    exact ⟨grantMemory u (.write 0xFFF00#20 (u.shadow.byte 0#4)),
      congrArg Host.Outcome.next (afterEvent_busy rfl rfl), statusGrant_frame u _⟩

/-! ### The release of power-on reset (R161) -/

/-- A lookup that misses ends the bytes that a reading takes at once (R157, R162). -/
theorem gatherHeld_missed {q : List Entry} {base : Addr} {bs : List Byte} (total fuel : Nat)
    (h : overlay q (base + BitVec.ofNat 20 bs.length) = none) :
    gatherHeld q base total fuel bs = bs := by
  cases fuel with
  | zero => rfl
  | succ fuel =>
    rw [gatherHeld, h]
    simp

/-- The next status byte that the queue does not hold is a LOAD read (R162). -/
theorem continueStatusRead_missed {s : State} (hl : s.sequencer.bytes.length < 16)
    (h : overlay s.queue (statusBase + BitVec.ofNat 20 s.sequencer.bytes.length) = none) :
    continueStatusRead s =
      portRequest .load (.read (statusBase + BitVec.ofNat 20 s.sequencer.bytes.length)) s := by
  unfold continueStatusRead
  rw [gatherHeld_missed _ _ h]
  dsimp only
  rw [if_pos (by exact hl)]

/-- Settles O15. -/
theorem powerOnReleaseStartsSequencer : Obligations.PowerOnReleaseStartsSequencer := by
  intro s hreq rst mrdy vsen hpor hcs
  let p : Pins := { s.pins with hreq := hreq, rst := rst, mrdy := mrdy, vsen := vsen }
  let z : State := { powerOn { s with pins := p } with
    porAsserted := false
    control := { (powerOn s).control with hreq := hreq }
    host := { (powerOn s).host with rstHigh := rst } }
  have hread : continueStatusRead z = portRequest .load (.read 0xFFF00#20) z :=
    continueStatusRead_missed (s := z) (show 0 < 16 by decide) rfl
  have hgrant := portRequest_quiet (s := z) .load (.read 0xFFF00#20) ⟨rfl, rfl⟩ rfl
  have hexec : exec (.porRelease hreq rst mrdy vsen) s =
      .next (settleHost (continueStatusRead z)) := by
    show execPorRelease hreq rst mrdy vsen s = _
    rw [execPorRelease, if_pos hpor]
    rfl
  rw [hexec, hread, hgrant]
  refine ⟨_, congrArg Host.Outcome.next (settleHost_noStrobe (busOp_deselected hcs)), ?_⟩
  exact ⟨rfl, rfl, rfl, rfl, rfl, rfl, rfl, rfl, rfl, rfl, rfl, rfl⟩

/-! ### Entries to HOLD (R51, R145, R148) -/

/-- What an abandonment does to the writer (R145). -/
theorem abandonStatusWrite_writer (s : State) :
    (abandonStatusWrite s).writer.pending = false ∧
      (s.writer.state = .idle → (abandonStatusWrite s).writer =
        { s.writer with pending := false }) ∧
      (s.writer.state ≠ .idle → (abandonStatusWrite s).writer.record = .abandoned) := by
  unfold abandonStatusWrite
  split
  · next h => exact ⟨rfl, fun _ => rfl, fun hn => absurd h hn⟩
  · next h =>
    have hn : s.writer.state ≠ .idle := by simp [h]
    split <;> exact ⟨rfl, fun h => absurd h hn, fun _ => rfl⟩

/-- UNMARKED is determined cleared exactly by a COMPLETED record of a non-CLEAN state (R148). -/
theorem recordUnmarked_eq_false {r : WriteRecord} :
    recordUnmarked r = false ↔ ∃ f, f ≠ .clean ∧ r = .completed f := by
  cases r with
  | completed f => cases f <;> simp [recordUnmarked]
  | _ => simp [recordUnmarked]

/-- With a write in flight the abandonment leaves no COMPLETED record (R145, R148). -/
theorem abandoned_unmarked_iff (s : State) :
    recordUnmarked (abandonStatusWrite s).writer.record = false ↔
      s.writer.state = .idle ∧ ∃ f, f ≠ .clean ∧ s.writer.record = .completed f := by
  obtain ⟨-, hidle, hflight⟩ := abandonStatusWrite_writer s
  by_cases hw : s.writer.state = .idle
  · rw [hidle hw, recordUnmarked_eq_false]
    simp [hw]
  · rw [hflight hw]
    simp [recordUnmarked, hw]

/-- A stop leaves the engine STOPPED or STOPPING (R100). -/
theorem stopEngine_state (s : State) :
    (stopEngine s).engine.state = .stopped ∨ (stopEngine s).engine.state = .stopping := by
  unfold stopEngine
  split
  · next h => exact .inl h
  · next h => exact .inr h
  · split
    · exact .inl rfl
    · exact .inr rfl
  all_goals exact .inl rfl

theorem leaveDrain_status (m : Mode) (s : State) : (leaveDrain m s).status = s.status := by simp

/-- The state in which an entry to HOLD has the access in progress decided anew (R51). -/
def holdEntered (s : State) : State :=
  leaveDrain s.control.mode
    (determineUnmarked (abandonStatusWrite (awaitNone (setSafety .held (setMode .hold s)))))

theorem enterHold_eq (s : State) : enterHold s = hostModeChanged (holdEntered s) := rfl

theorem enterHold_kept (s : State) : kept (enterHold s) = kept (holdEntered s) :=
  hostModeChanged_kept _

@[simp] theorem enterHold_control (s : State) :
    (enterHold s).control = { s.control with mode := .hold, awaited := none } := by
  simp only [enterHold, hostModeChanged_frame, leaveDrain_frame, determineUnmarked_frame,
    abandonStatusWrite_frame]
  rfl

@[simp] theorem enterHold_writer (s : State) :
    (enterHold s).writer = (abandonStatusWrite s).writer := by
  have hwriter (u v : State) (h : u.writer = v.writer) (hp : u.port = v.port) :
      (abandonStatusWrite u).writer = (abandonStatusWrite v).writer := by
    unfold abandonStatusWrite
    rw [h, hp]
    split
    · rfl
    · split <;> rfl
  simp only [enterHold, hostModeChanged_frame, leaveDrain_frame, determineUnmarked_frame]
  exact hwriter _ _ rfl rfl

/-- What an entry to HOLD makes of the status unit (R51, R148). -/
theorem enterHold_status (s : State) :
    (enterHold s).status.safety = .held ∧
      ((enterHold s).status.unmarked = false ↔
        s.writer.state = .idle ∧ ∃ f, f ≠ .clean ∧ s.writer.record = .completed f) ∧
      (enterHold s).status.episodes = s.status.episodes := by
  obtain ⟨hs, hu, he⟩ := kept_status (enterHold_kept s)
  rw [hs, hu, he]
  simp only [holdEntered, leaveDrain_status]
  refine ⟨by simp [determineUnmarked], abandoned_unmarked_iff
    (awaitNone (setSafety .held (setMode .hold s))), by simp [determineUnmarked]⟩

/-- An entry to HOLD from DRAIN stops the engine (R100). -/
theorem enterHold_engine_state {s : State} (h : s.control.mode = .drain) :
    (enterHold s).engine.state = .stopped ∨ (enterHold s).engine.state = .stopping := by
  have hstop := stopEngine_state
    (determineUnmarked (abandonStatusWrite (awaitNone (setSafety .held (setMode .hold s)))))
  have heq : holdEntered s = stopEngine
      (determineUnmarked (abandonStatusWrite (awaitNone (setSafety .held (setMode .hold s))))) := by
    rw [holdEntered, leaveDrain, if_pos h]
  rw [← heq] at hstop
  have hkept := kept_engine_state (enterHold_kept s)
  rcases hstop with hstop | hstop
  · exact .inl ((hkept (by simp [hstop]) (by simp [hstop])).trans hstop)
  · exact .inr ((hkept (by simp [hstop]) (by simp [hstop])).trans hstop)

/-- With no access in progress an entry to HOLD leaves the causes (R51). -/
theorem enterHold_causes {s : State} (h : s.host.access = none) :
    (enterHold s).status.causes = s.status.causes ∧ (enterHold s).monitor = s.monitor := by
  rw [enterHold_eq, hostModeChanged_none (by simpa [holdEntered] using h)]
  simp [holdEntered, determineUnmarked]

/-- An HREQ rising edge in DRAIN or CLOSING begins a FORCED hold (R64, R68). -/
theorem takeHreqRising_reenters {s : State} (h : s.control.mode = .drain ∨ s.control.mode = .closing) :
    takeHreqRising s = beginHold .forced { s with control := { s.control with hreq := true } } := by
  unfold takeHreqRising
  rcases h with h | h <;> rw [h]

/-- Every cause but WARN is pending as the status unit holds it (R134). -/
theorem causes_getLsbD (s : State) {k : Nat} (hk : k ≠ 2) :
    s.causes.getLsbD k = s.status.causes.getLsbD k := by
  have hbit : Cause.warn.bit.getLsbD k = false := by
    by_cases h8 : k < 8
    · exact (by decide : ∀ k < 8, k ≠ 2 → Cause.warn.bit.getLsbD k = false) k h8 hk
    · exact BitVec.getLsbD_of_ge _ _ (by omega)
  have hlate : s.status.causes.getLsbD k = true → k < 8 := BitVec.lt_of_getLsbD
  unfold State.causes
  rw [BitVec.getLsbD_or, BitVec.getLsbD_and, BitVec.getLsbD_not, hbit]
  split <;> simp [hbit] <;> exact hlate

/-- Settles O31. -/
theorem hreqRisingReentersHold : Obligations.HreqRisingReentersHold := by
  intro s hpor hm
  let x : State := beginEpisode .forced
    { s with pins := { s.pins with hreq := true }, control := { s.control with hreq := true } }
  have htake : takeHreqRising { s with pins := { s.pins with hreq := true } } = enterHold x := by
    rw [takeHreqRising_reenters (s := { s with pins := { s.pins with hreq := true } }) hm]
    rfl
  obtain ⟨hsafe, hun, hep⟩ := enterHold_status x
  refine ⟨_, exec_hreqRising hpor, ?_⟩
  rw [htake]
  simp only [afterEvent_frame, enterHold_control, enterHold_writer]
  refine ⟨rfl, hsafe, hep, fun hacc => ?_, (abandonStatusWrite_writer x).1, hun,
    fun hd => enterHold_engine_state (s := x) hd⟩
  obtain ⟨hc, -⟩ := enterHold_causes (s := x) hacc
  rw [causes_getLsbD _ (by decide)]
  simp only [afterEvent_frame]
  rw [hc]
  show (s.status.causes ||| 0x01#8).getLsbD 0 = true
  simp

end Sys2Proof.Machine

/-! ## Supply samples (chapter 4) -/

namespace Sys2Proof.Machine

open Sys2Proof

set_option Elab.async false

/-- Within an access the port keeps it (R103). -/
theorem Moves.busy_access {k : HostTie} {acc : PortAccess} {s t : State}
    (h : Moves k (some acc) s t) (hs : s.port.access = some acc) : t.port.access = some acc := by
  rcases h.keeps Move.grantedSince (.inl ⟨hs, rfl⟩ : grantedSince (some acc) s.memory s) with
    ⟨ha, -⟩ | ⟨hn, -⟩
  · exact ha
  · cases hn

/-! ### One sample (R70 to R79) -/

/-- What a sample makes of the monitor, with its event (R73 to R76). -/
def sampled (v : Nat) (s : State) : SupplyMonitor × SupplyEvent :=
  sampleFilter s.config (classOf s.config.warningCode v) s.monitor

/-- The state in which the mode controller takes a sample's event: the clock and the pin, the monitor, the
engine's class report and the timer aimed ahead (R71, R78). -/
def measured (v due : Nat) (s : State) : State :=
  aimTimer (engineClass (classOf s.config.warningCode v)
    { s with
      pins := { s.pins with vsen := v }, now := max s.now due, monitor := (sampled v s).1 })

theorem exec_sample {s : State} {timer : SampleTimer} (v : Nat) (h : s.monitor.timer = some timer) :
    exec (.sample v) s = .next (afterEvent s.control.mode
      (takeSupplyEvent (sampled v s).2 (measured v timer.due s))) := by
  show execSample v s = _
  unfold execSample
  rw [h]
  rfl

@[simp] theorem measured_frame (v due : Nat) (s : State) :
    (measured v due s).host = s.host ∧ (measured v due s).queue = s.queue ∧
    (measured v due s).control = s.control ∧ (measured v due s).port = s.port ∧
    (measured v due s).status = s.status ∧ (measured v due s).writer = s.writer ∧
    (measured v due s).descriptor = s.descriptor ∧ (measured v due s).sequencer = s.sequencer ∧
    (measured v due s).now = max s.now due := by
  simp [measured]

/-- The monitor after a sample, its timer aimed one period ahead (R71). -/
theorem measured_monitor (v due : Nat) (s : State) :
    (measured v due s).monitor = { (sampled v s).1 with
      timer := some ⟨max s.now due, max s.now due + samplePeriod s.control.mode⟩ } := by
  simp [measured, aimTimer]

/-- The engine after a class report (R83, R92). -/
theorem measured_engine (v due : Nat) (s : State) :
    (measured v due s).engine =
      if s.engine.state.running = true ∧ classOf s.config.warningCode v ≠ .good then
        { s.engine with
          lastClass := classOf s.config.warningCode v, rampLevel := 7
          rampTimer := some (max s.now due + rampPeriod s.config.rampSelect) }
      else { s.engine with lastClass := classOf s.config.warningCode v } := by
  unfold measured engineClass aimTimer
  dsimp only
  split <;> rfl

theorem classOf_low {code : BitVec 3} {v : Nat} : classOf code v = .low ↔ v < 2700 := by
  unfold classOf holdLevel
  split
  · next h => simp [h]
  · next h =>
    split <;> simp [h]

/-- A LOW sample leaves the monitor WARNED and trips (R74, R76). -/
theorem sampled_low {v : Nat} (s : State) (h : v < 2700) :
    (sampled v s).1.state = .warned ∧
      ((sampled v s).2 = .trip ∨ (sampled v s).2 = .warnTrip) := by
  unfold sampled sampleFilter
  rw [classOf_low.2 h]
  split
  · exact ⟨rfl, .inr rfl⟩
  · next hw => exact ⟨hw, .inl rfl⟩

/-- A sample that is not LOW moves the monitor state exactly with its WARN or CLEAR (R73, R75). -/
theorem sampled_notLow {v : Nat} (s : State) (h : 2700 ≤ v) :
    ((sampled v s).2 = .nothing ∧ (sampled v s).1.state = s.monitor.state) ∨
      ((sampled v s).2 = .warn ∧ s.monitor.state = .good ∧ (sampled v s).1.state = .warned) ∨
      ((sampled v s).2 = .clear ∧ s.monitor.state = .warned ∧ (sampled v s).1.state = .good) := by
  have hlow : classOf s.config.warningCode v ≠ .low := fun hl => by
    have := classOf_low.1 hl
    omega
  unfold sampled sampleFilter
  cases hm : s.monitor.state with
  | good =>
    cases hc : classOf s.config.warningCode v with
    | good => exact .inl ⟨rfl, hm⟩
    | low => exact absurd hc hlow
    | marginal =>
      dsimp only [sampleGood]
      split
      · exact .inl ⟨rfl, hm⟩
      · exact .inr (.inl ⟨rfl, rfl, rfl⟩)
  | warned =>
    cases hc : classOf s.config.warningCode v with
    | marginal => exact .inl ⟨rfl, hm⟩
    | low => exact absurd hc hlow
    | good =>
      dsimp only [sampleWarned]
      split
      · exact .inl ⟨rfl, hm⟩
      · exact .inr (.inr ⟨rfl, rfl, rfl⟩)

/-! ### The events (R77) -/

/-- A TRIP outside ENTERING and HOLD begins an AUTO hold (R53, R63, R68, R167). -/
theorem takeTrip_begins {s : State} (hh : s.control.mode ≠ .hold) (he : s.control.mode ≠ .entering) :
    ∃ q, takeTrip s = beginHold .auto { s with sequencer := q } := by
  unfold takeTrip
  split
  · exact ⟨_, rfl⟩
  · exact ⟨s.sequencer, rfl⟩
  · next h => exact absurd h he
  · next h => exact absurd h hh
  · exact ⟨s.sequencer, rfl⟩
  · exact ⟨s.sequencer, rfl⟩

/-- The end of an event moves only the timer of the monitor (R71). -/
theorem afterEvent_monitor (m : Mode) (s : State) :
    ∃ timer, (afterEvent m s).monitor = { s.monitor with timer := timer } := by
  unfold afterEvent
  split
  · exact ⟨_, rfl⟩
  · rw [(decideGrant_frame _).2.2.2.2.2.2.2.1]
    unfold reaim
    split
    · exact ⟨_, rfl⟩
    · split <;> exact ⟨_, rfl⟩

theorem afterEvent_monitor_state (m : Mode) (s : State) :
    (afterEvent m s).monitor.state = s.monitor.state := by
  obtain ⟨timer, h⟩ := afterEvent_monitor m s
  rw [h]

/-- The event of a LOW sample is a TRIP (R74, R76). -/
theorem takeSupplyEvent_low {v : Nat} (s t : State) (h : v < 2700) :
    takeSupplyEvent (sampled v s).2 t = takeTrip t := by
  rcases (sampled_low s h).2 with he | he <;> rw [he] <;> rfl

theorem enterHold_monitor_state (s : State) :
    (enterHold s).monitor.state = s.monitor.state := by
  have h : (enterHold s).monitor.state = (holdEntered s).monitor.state :=
    congrArg Kept.monitor (enterHold_kept s)
  rw [h]
  simp [holdEntered]

/-- Settles O38. -/
theorem lowSampleTrips : Obligations.LowSampleTrips := by
  intro s v ht hv
  obtain ⟨timer, ht⟩ := Option.ne_none_iff_exists'.1 ht
  have hwarned : (measured v timer.due s).monitor.state = .warned := by
    rw [measured_monitor]; exact (sampled_low s hv).1
  refine ⟨_, exec_sample v ht, ?_⟩
  rw [takeSupplyEvent_low s _ hv, afterEvent_monitor_state]
  simp only [afterEvent_frame]
  generalize hx : measured v timer.due s = x at hwarned
  have hctl : x.control = s.control := by rw [← hx]; simp
  have hsta : x.status = s.status := by rw [← hx]; simp
  have hwri : x.writer = s.writer := by rw [← hx]; simp
  by_cases hh : s.control.mode = .hold
  · have htake : takeTrip x = x := by unfold takeTrip; rw [hctl, hh]
    rw [htake]
    exact ⟨hwarned, fun _ => ⟨hctl, hsta⟩, fun h => absurd hh h, fun h => by simp [hh] at h,
      fun h => absurd hh h⟩
  by_cases he : s.control.mode = .entering
  · have htake : takeTrip x = enterHold x := by unfold takeTrip; rw [hctl, he]
    obtain ⟨hsafe, hun, hep⟩ := enterHold_status x
    rw [htake, enterHold_monitor_state, enterHold_control, enterHold_writer, hctl]
    rw [hwri] at hun
    exact ⟨hwarned, fun h => absurd h hh,
      fun _ => ⟨rfl, rfl, rfl, hsafe, (abandonStatusWrite_writer x).1, hun⟩,
      fun _ => ⟨rfl, by rw [hep, hsta]⟩, fun _ h => absurd he h⟩
  · obtain ⟨q, htake⟩ := takeTrip_begins (s := x) (by rwa [hctl]) (by rwa [hctl])
    let y : State := beginEpisode .auto { x with sequencer := q }
    have hy : takeTrip x = enterHold y := htake
    have hwy : y.writer = s.writer := hwri
    have hcy : y.control = { s.control with reason := .auto } := by rw [← hctl]; rfl
    have hsy : y.status.episodes = s.status.episodes + 1#8 := by rw [← hsta]; rfl
    obtain ⟨hsafe, hun, hep⟩ := enterHold_status y
    rw [hy, enterHold_monitor_state, enterHold_control, enterHold_writer, hcy]
    rw [hwy] at hun
    exact ⟨hwarned, fun h => absurd h hh,
      fun _ => ⟨rfl, rfl, rfl, hsafe, (abandonStatusWrite_writer y).1, hun⟩, fun h => absurd h he,
      fun _ _ => ⟨rfl, hep.trans hsy⟩⟩

/-! ### A sample with no access in progress -/

section NoAccess

variable {s : State} (h : s.host.access = none)

include h

/-- With no access in progress a TRIP leaves the monitor (R77). -/
theorem takeTrip_monitor : (takeTrip s).monitor = s.monitor := by
  by_cases hh : s.control.mode = .hold
  · unfold takeTrip; rw [hh]
  by_cases he : s.control.mode = .entering
  · have htake : takeTrip s = enterHold s := by unfold takeTrip; rw [he]
    rw [htake]
    exact (enterHold_causes h).2
  · obtain ⟨q, htake⟩ := takeTrip_begins hh he
    rw [htake]
    exact (enterHold_causes (s := beginEpisode .auto { s with sequencer := q }) h).2

/-- With no access in progress an exit from HOLD leaves the monitor. -/
theorem evaluateExit_monitor : (evaluateExit s).monitor = s.monitor := by
  unfold evaluateExit enterClosing enterDrain
  dsimp only
  split
  · split
    · rw [hostModeChanged_none (by simpa using h)]; simp
    · rw [hostModeChanged_none (by simpa using h)]; simp
  · rfl

/-- With no access in progress no event of a sample moves the monitor (R77). -/
theorem takeSupplyEvent_monitor (e : SupplyEvent) : (takeSupplyEvent e s).monitor = s.monitor := by
  cases e with
  | nothing => rfl
  | warn =>
    show (takeWarn s).monitor = _
    unfold takeWarn followMonitor
    split <;> simp
  | clear =>
    show (takeClear s).monitor = _
    unfold takeClear followMonitor
    split
    case h_4 => exact evaluateExit_monitor h
    all_goals simp
  | trip => exact takeTrip_monitor h
  | warnTrip => exact takeTrip_monitor h

end NoAccess

/-- A timer just aimed is aimed anew by the mode that the event leaves (R71). -/
theorem afterEvent_aimed {s : State} {m : Mode}
    (h : s.monitor.timer = some ⟨s.now, s.now + samplePeriod m⟩) :
    (afterEvent m s).monitor.timer = some ⟨s.now, s.now + samplePeriod s.control.mode⟩ := by
  unfold afterEvent
  split
  · next hm => rw [h, hm]
  · rw [(decideGrant_frame _).2.2.2.2.2.2.2.1]
    unfold reaim
    rw [h]
    dsimp only
    split
    · next hp => rw [h, hp]
    · simp

/-- A stop of a running engine keeps its level and its class, and stops the step timer (R91, R100). -/
theorem stopEngine_running {s : State} (h : s.engine.state.running = true) :
    (stopEngine s).engine.lastClass = s.engine.lastClass ∧
      (stopEngine s).engine.rampLevel = s.engine.rampLevel ∧
      (stopEngine s).engine.rampTimer = none := by
  unfold stopEngine
  split
  · next he => rw [he] at h; cases h
  · next he => rw [he] at h; cases h
  · split <;> exact ⟨rfl, rfl, rfl⟩
  all_goals exact ⟨rfl, rfl, rfl⟩

/-- The engine runs in every state but two (R91). -/
theorem running_iff (e : EngineState) : e.running = true ↔ e ≠ .stopped ∧ e ≠ .stopping := by
  cases e <;> simp [EngineState.running]

/-- With no access in progress an entry to HOLD from DRAIN stops a running engine (R100). -/
theorem enterHold_engine {s : State} (hacc : s.host.access = none) (hm : s.control.mode = .drain)
    (hr : s.engine.state.running = true) :
    (enterHold s).engine.lastClass = s.engine.lastClass ∧
      (enterHold s).engine.rampLevel = s.engine.rampLevel ∧
      (enterHold s).engine.rampTimer = none := by
  generalize hx :
    determineUnmarked (abandonStatusWrite (awaitNone (setSafety .held (setMode .hold s)))) = x
  have hxe : x.engine = s.engine := by rw [← hx]; simp
  have heq : holdEntered s = stopEngine x := by rw [holdEntered, leaveDrain, if_pos hm, hx]
  have hxa : x.host.access = none := by rw [← hx]; simpa using hacc
  rw [enterHold_eq, heq, hostModeChanged_none (by simpa using hxa), ← hxe]
  exact stopEngine_running (by rw [hxe]; exact hr)

/-- In DRAIN no event but a TRIP does anything (R57, R58). -/
theorem takeSupplyEvent_drain {s : State} {e : SupplyEvent} (hm : s.control.mode = .drain)
    (he : e = .nothing ∨ e = .warn ∨ e = .clear) : takeSupplyEvent e s = s := by
  rcases he with rfl | rfl | rfl
  · rfl
  · show takeWarn s = s
    unfold takeWarn; rw [hm]
  · show takeClear s = s
    unfold takeClear; rw [hm]

/-- The period of the sample timer (Table 4-2). -/
theorem samplePeriod_eq (m : Mode) : samplePeriod m = if m = .hold then 1000 else 125 := by
  cases m <;> rfl

/-- Settles O37. -/
theorem sampleMovesMonitor : Obligations.SampleMovesMonitor := by
  intro s v last due ht hacc
  generalize hx : measured v due s = x
  have hxm : x.monitor = { (sampled v s).1 with
      timer := some ⟨max s.now due, max s.now due + samplePeriod s.control.mode⟩ } := by
    rw [← hx]; exact measured_monitor v due s
  have hxe := measured_engine v due s
  rw [hx] at hxe
  have hxa : x.host.access = none := by rw [← hx]; simpa using hacc
  have hxc : x.control = s.control := by rw [← hx]; simp
  have hxn : x.now = max s.now due := by rw [← hx]; simp
  have hexec := exec_sample v ht
  dsimp only at hexec
  rw [hx] at hexec
  have hmon := takeSupplyEvent_monitor hxa (sampled v s).2
  have hnow : (takeSupplyEvent (sampled v s).2 x).now = max s.now due := by simp [hxn]
  refine ⟨_, hexec, by simp [hxn], ?_, ?_, fun hm => ?_⟩
  · have haim := afterEvent_aimed (s := takeSupplyEvent (sampled v s).2 x) (m := s.control.mode)
      (by rw [hmon, hxm, hnow])
    rw [haim]
    simp only [afterEvent_frame, samplePeriod_eq]
  · obtain ⟨timer, haft⟩ := afterEvent_monitor s.control.mode (takeSupplyEvent (sampled v s).2 x)
    rw [haft, hmon, hxm]
    dsimp only [sampled, sampleFilter]
    cases hst : s.monitor.state with
    | good =>
      cases hc : classOf s.config.warningCode v with
      | good => simp [sampleGood, hst]
      | marginal => dsimp only [sampleGood]; split <;> simp [hst]
      | low => rfl
    | warned =>
      cases hc : classOf s.config.warningCode v with
      | good => dsimp only [sampleWarned]; split <;> simp [hst]
      | marginal => simp [sampleWarned, hst]
      | low => simp [sampleWarned, hst]
  · intro cls running
    have hstay (h : cls ≠ .low) : takeSupplyEvent (sampled v s).2 x = x := by
      have hv : 2700 ≤ v := Nat.le_of_not_lt fun hlt => h (classOf_low.2 hlt)
      refine takeSupplyEvent_drain (by rw [hxc]; exact hm) ?_
      rcases sampled_notLow s hv with ⟨h, -⟩ | ⟨h, -⟩ | ⟨h, -⟩
      · exact .inl h
      · exact .inr (.inl h)
      · exact .inr (.inr h)
    refine ⟨fun hc => ?_, fun hc hr => ?_, fun hc hr => ?_⟩
    · have hno : ¬ (s.engine.state.running = true ∧ cls ≠ .good) := by
        rw [running_iff]
        rcases hc with hc | ⟨-, hr⟩
        · exact fun h => h.2 hc
        · exact fun h => hr h.1
      rw [if_neg hno] at hxe
      simp only [afterEvent_frame]
      rw [hstay (by rcases hc with hc | ⟨hc, -⟩ <;> simp [hc]), hxe]
    · rw [if_pos ⟨(running_iff _).2 hr, by simp [cls] at hc; simp [hc]⟩] at hxe
      simp only [afterEvent_frame]
      rw [hstay (by simp [hc]), hxe, hxn]
      rfl
    · have hv : v < 2700 := classOf_low.1 hc
      rw [if_pos ⟨(running_iff _).2 hr, by simp [cls] at hc; simp [hc]⟩] at hxe
      simp only [afterEvent_frame]
      rw [takeSupplyEvent_low s x hv]
      obtain ⟨q, htake⟩ := takeTrip_begins (s := x) (by rw [hxc, hm]; decide)
        (by rw [hxc, hm]; decide)
      let y : State := beginEpisode .auto { x with sequencer := q }
      have hye : y.engine = x.engine := rfl
      have hym : y.control.mode = .drain := show x.control.mode = _ by rw [hxc]; exact hm
      have hrun : y.engine.state.running = true := by
        rw [hye, hxe]; exact (running_iff _).2 hr
      obtain ⟨hclass, hlevel, htimer⟩ := enterHold_engine (s := y) hxa hym hrun
      rw [htake]
      show (enterHold y).engine.lastClass = _ ∧ (enterHold y).engine.rampLevel = _ ∧
        (enterHold y).engine.rampTimer = _ ∧ _
      rw [hclass, hlevel, htimer, hye, hxe]
      exact ⟨rfl, rfl, rfl, enterHold_engine_state hym⟩

end Sys2Proof.Machine

/-! ## The safety state and the exit from HOLD after a sample (R52, R59) -/

namespace Sys2Proof.Machine

open Sys2Proof

set_option Elab.async false

/-- A beginning report leaves the controller but for the awaited marker's flag (R49). -/
theorem beginStatusWrite_control (s : State) :
    (beginStatusWrite s).control = { s.control with
      awaited := s.control.awaited.map fun a => { a with begun := true } } := by
  simp [beginStatusWrite, reportBegun]

/-- The writer as a status write begins: the image is the shadow as it stands (R143). -/
theorem beginStatusWrite_writer (s : State) :
    (beginStatusWrite s).writer =
      { s.writer with state := .writing 0#4, image := s.shadow, record := .started } := by
  simp [beginStatusWrite, reportBegun]

/-- What the writer and the controller make of a request outside HOLD (R143, R49). -/
theorem requestStatusWrite_writer {s : State} (hm : s.control.mode ≠ .hold) :
    (s.writer.state = .idle → (requestStatusWrite s).writer =
        { s.writer with state := .writing 0#4, image := s.shadow, record := .started }) ∧
      ∀ n, s.writer.state = .writing n →
        (requestStatusWrite s).writer = { s.writer with pending := true } ∧
        (requestStatusWrite s).port = s.port := by
  refine ⟨fun hw => ?_, fun n hw => ?_⟩
  · rw [requestStatusWrite_idle hm hw, beginStatusWrite_writer]
  · rw [requestStatusWrite_inFlight hm hw]
    exact ⟨rfl, rfl⟩

theorem requestStatusWrite_control {s : State} {k : AwaitedKind} (hm : s.control.mode ≠ .hold)
    (hc : s.control.awaited = some ⟨k, false⟩) :
    (requestStatusWrite s).control =
      { s.control with awaited := some ⟨k, decide (s.writer.state = .idle)⟩ } := by
  cases hw : s.writer.state with
  | idle =>
    rw [requestStatusWrite_idle hm hw, beginStatusWrite_control, hc]
    rfl
  | writing n =>
    rw [requestStatusWrite_inFlight hm hw]
    show s.control = { s.control with awaited := some ⟨k, false⟩ }
    rw [← hc]

/-- The first byte's grant on a quiet port (R104, R143). -/
theorem requestStatusWrite_grants {s : State} (hm : s.control.mode ≠ .hold)
    (hw : s.writer.state = .idle) (hq : portQuiet s) :
    ∃ p, (requestStatusWrite s).port.access =
      some ⟨.status, .write 0xFFF00#20 (s.shadow.byte 0#4), p⟩ := by
  rw [requestStatusWrite_idle hm hw, beginStatusWrite_quiet hq hm]
  exact ⟨_, rfl⟩

/-! ### WARN and CLEAR outside HOLD (R52) -/

theorem followMonitor_status (s : State) :
    (followMonitor s).status = { s.status with safety := monitorSafety s.monitor.state } := by
  simp [followMonitor, setSafety]

/-- In NORMAL, CLOSING and STARTUP a WARN and a CLEAR alike write the safety state (R52, R66, R167). -/
theorem takeSupplyEvent_follows {s : State} {e : SupplyEvent}
    (hm : s.control.mode = .normal ∨ s.control.mode = .closing ∨ s.control.mode = .startup)
    (he : e = .warn ∨ e = .clear) : takeSupplyEvent e s = followMonitor s := by
  rcases he with rfl | rfl
  · show takeWarn s = _
    unfold takeWarn
    rcases hm with hm | hm | hm <;> rw [hm]
  · show takeClear s = _
    unfold takeClear
    rcases hm with hm | hm | hm <;> rw [hm]

/-- In ENTERING and DRAIN, and in HOLD without an exit, no event but a TRIP does anything
(R57, R58, R59). -/
theorem takeSupplyEvent_stays {s : State} {e : SupplyEvent}
    (he : e = .nothing ∨ e = .warn ∨ e = .clear)
    (hm : s.control.mode = .entering ∨ s.control.mode = .drain ∨
      s.control.mode = .hold ∧ (e = .clear → exitCondition s = false)) :
    takeSupplyEvent e s = s := by
  rcases he with rfl | rfl | rfl
  · rfl
  · show takeWarn s = s
    unfold takeWarn
    rcases hm with hm | hm | ⟨hm, -⟩ <;> rw [hm]
  · show takeClear s = s
    unfold takeClear
    rcases hm with hm | hm | ⟨hm, hx⟩ <;> rw [hm]
    exact evaluateExit_stays (.inr (hx rfl))

/-! ### The exit from HOLD (R59 to R61) -/

/-- The state in which an exit to CLOSING requests the FINAL write (R61). -/
def closingAwaited (s : State) : State :=
  awaitWrite .final (setSafety (monitorSafety s.monitor.state) (setMode .closing s))

/-- The state in which an exit to DRAIN requests the DRAINING write (R60). -/
def drainAwaited (s : State) : State :=
  awaitWrite .draining { setSafety .draining (setMode .drain s) with
    engine := { s.engine with rampLevel := 7 } }

/-- The state in which HOLD's exit requests its status write, by the queue. -/
def exitAwaited (s : State) : State := if s.queue = [] then closingAwaited s else drainAwaited s

theorem enterClosing_notDrain {s : State} (h : s.control.mode ≠ .drain) :
    enterClosing s = hostModeChanged (requestStatusWrite (closingAwaited s)) := by
  unfold enterClosing
  dsimp only
  rw [leaveDrain, if_neg h]
  rfl

/-- With the exit condition met HOLD is left by the queue (R59). -/
theorem evaluateExit_leaves {s : State} (hm : s.control.mode = .hold)
    (hx : exitCondition s = true) : evaluateExit s = hostModeChanged (requestStatusWrite
      (exitAwaited s)) := by
  rw [evaluateExit, if_pos ⟨hm, hx⟩, exitAwaited]
  split
  · exact enterClosing_notDrain (by rw [hm]; decide)
  · rfl

/-- While an access is in progress the host port's decisions leave it (R103). -/
theorem hostModeChanged_access {s : State} {acc : PortAccess} (h : s.port.access = some acc) :
    (hostModeChanged s).port.access = some acc :=
  (hostModeChanged_moves (k := .nothing) (base := some acc) trivial).busy_access h

theorem afterEvent_access {s : State} {acc : PortAccess} (m : Mode) (h : s.port.access = some acc) :
    (afterEvent m s).port.access = some acc :=
  (afterEvent_moves (k := .nothing) (base := some acc) m s).busy_access h

theorem requestStatusWrite_rampLevel (s : State) :
    (requestStatusWrite s).engine.rampLevel = s.engine.rampLevel := by
  rcases requestStatusWrite_cases s with ⟨-, h⟩ | ⟨-, -, h⟩ | ⟨-, -, h⟩ <;> rw [h]
  simp [beginStatusWrite, reportBegun]

section Awaited

variable {y : State} {k : AwaitedKind} (m : Mode) (hm : y.control.mode ≠ .hold)
  (hc : y.control.awaited = some ⟨k, false⟩)

/-- The fields that the access in progress, decided anew, leaves of the state in which the awaited write was
requested (R38, R39). -/
theorem awaited_kept :
    (afterEvent m (hostModeChanged (requestStatusWrite y))).status.safety = y.status.safety ∧
    (afterEvent m (hostModeChanged (requestStatusWrite y))).engine.rampLevel =
      y.engine.rampLevel ∧
    (afterEvent m (hostModeChanged (requestStatusWrite y))).monitor.state = y.monitor.state := by
  have hk : kept (hostModeChanged (requestStatusWrite y)) = kept (requestStatusWrite y) :=
    hostModeChanged_kept _
  rw [afterEvent_monitor_state]
  simp only [afterEvent_frame]
  rw [(kept_status hk).1, kept_rampLevel hk, requestStatusWrite_rampLevel,
    show (hostModeChanged _).monitor.state = _ from congrArg Kept.monitor hk]
  exact ⟨by simp, rfl, congrArg SupplyMonitor.state (by simp)⟩

include hm

theorem awaited_writer :
    (y.writer.state = .idle →
      (afterEvent m (hostModeChanged (requestStatusWrite y))).writer =
        { y.writer with state := .writing 0#4, image := y.shadow, record := .started }) ∧
    ∀ n, y.writer.state = .writing n →
      (afterEvent m (hostModeChanged (requestStatusWrite y))).writer =
        { y.writer with pending := true } := by
  simp only [afterEvent_frame, hostModeChanged_frame]
  exact ⟨(requestStatusWrite_writer hm).1, fun n hn => ((requestStatusWrite_writer hm).2 n hn).1⟩

theorem awaited_port (hw : y.writer.state = .idle) (hq : portQuiet y) :
    (afterEvent m (hostModeChanged (requestStatusWrite y))).port.access.map
      (fun acc => (acc.requester, acc.op)) =
      some (.status, .write 0xFFF00#20 (y.shadow.byte 0#4)) := by
  obtain ⟨p, hp⟩ := requestStatusWrite_grants hm hw hq
  rw [afterEvent_access m (hostModeChanged_access hp)]
  rfl

include hc

theorem awaited_control : (afterEvent m (hostModeChanged (requestStatusWrite y))).control =
    { y.control with awaited := some ⟨k, decide (y.writer.state = .idle)⟩ } := by
  simp only [afterEvent_frame, hostModeChanged_frame]
  exact requestStatusWrite_control hm hc

end Awaited

/-! ### The three parts of O39 -/

/-- The exit's write, with the fields that O39 names. -/
theorem exitAwaited_fields (s : State) (hg : s.monitor.state = .good) :
    (exitAwaited s).control = { s.control with
        mode := if s.queue = [] then .closing else .drain
        awaited := some ⟨if s.queue = [] then .final else .draining, false⟩ } ∧
      (exitAwaited s).status.safety = (if s.queue = [] then .clean else .draining) ∧
      (s.queue ≠ [] → (exitAwaited s).engine.rampLevel = 7) ∧
      (exitAwaited s).writer = s.writer ∧ (exitAwaited s).port = s.port ∧
      (exitAwaited s).monitor = s.monitor := by
  unfold exitAwaited
  split
  · next h =>
    refine ⟨rfl, ?_, fun hn => absurd h hn, rfl, rfl, rfl⟩
    show monitorSafety s.monitor.state = _
    rw [hg]
    rfl
  · exact ⟨rfl, rfl, fun _ => rfl, rfl, rfl, rfl⟩

/-- A recovery run that reaches its filter clears (R75). -/
theorem sampled_clears {v : Nat} {s : State} (hm : s.monitor.state = .warned)
    (hc : classOf s.config.warningCode v = .good)
    (hf : s.config.recoveryFilter ≤ s.monitor.recoveryRun + 1) :
    (sampled v s).2 = .clear ∧ (sampled v s).1.state = .good := by
  unfold sampled sampleFilter
  rw [hm, hc]
  dsimp only [sampleWarned]
  rw [if_neg (by omega)]
  exact ⟨rfl, rfl⟩

/-- An exit from HOLD leaves the monitor state. -/
theorem evaluateExit_monitor_state (m : Mode) (s : State) :
    (afterEvent m (evaluateExit s)).monitor.state = s.monitor.state := by
  by_cases h : s.control.mode = .hold ∧ exitCondition s = true
  · rw [evaluateExit_leaves h.1 h.2, (awaited_kept m).2.2]
    unfold exitAwaited
    split <;> rfl
  · rw [evaluateExit, if_neg h, afterEvent_monitor_state]

/-- A followed monitor's status write, outside HOLD (R52, R143). -/
theorem followMonitor_fields {s : State} (hm : s.control.mode ≠ .hold) :
    (followMonitor s).control.mode = s.control.mode ∧ (followMonitor s).sequencer = s.sequencer ∧
      (followMonitor s).monitor = s.monitor ∧
      (followMonitor s).status.safety = monitorSafety s.monitor.state ∧
      (s.writer.state = .idle → (followMonitor s).writer.state = .writing 0#4 ∧
        (followMonitor s).writer.record = .started ∧
        (followMonitor s).writer.image.safety = monitorSafety s.monitor.state ∧
        (followMonitor s).writer.image.mode = s.control.mode) ∧
      (∀ n, s.writer.state = .writing n →
        (followMonitor s).writer = { s.writer with pending := true } ∧
        (followMonitor s).port = s.port) := by
  obtain ⟨hidle, hflight⟩ := requestStatusWrite_writer
    (s := setSafety (monitorSafety s.monitor.state) s) hm
  refine ⟨by simp [followMonitor], by simp [followMonitor], by simp [followMonitor],
    by rw [followMonitor_status], fun hw => ?_, hflight⟩
  unfold followMonitor
  rw [hidle hw]
  exact ⟨rfl, rfl, rfl, rfl⟩

/-- A CLEAR in HOLD with the exit condition met leaves HOLD by the queue, with the exit's write (R59 to R61). -/
theorem clear_leavesHold {x t : State} (hm : x.control.mode = .hold) (hh : x.control.hreq = false)
    (hg : x.monitor.state = .good) (ht : afterEvent .hold (takeClear x) = t) :
    t.monitor.state = .good ∧
      t.control = { x.control with
        mode := if x.queue = [] then .closing else .drain
        awaited := some ⟨if x.queue = [] then .final else .draining,
          decide (x.writer.state = .idle)⟩ } ∧
      t.status.safety = (if x.queue = [] then .clean else .draining) ∧ t.heldPin = true ∧
      (x.queue ≠ [] → t.engine.rampLevel = 7) ∧
      (x.writer.state = .idle → t.writer.state = .writing 0#4 ∧ t.writer.record = .started ∧
        t.writer.image.mode = t.control.mode ∧ t.writer.image.safety = t.status.safety ∧
        (portQuiet x → t.port.access.map (fun acc => (acc.requester, acc.op)) =
          some (.status, .write 0xFFF00#20 (t.writer.image.byte 0#4)))) ∧
      (∀ n, x.writer.state = .writing n → t.writer = { x.writer with pending := true }) := by
  have htake : takeClear x = hostModeChanged (requestStatusWrite (exitAwaited x)) := by
    unfold takeClear
    rw [hm]
    exact evaluateExit_leaves hm (by simp [exitCondition, hh, hg])
  obtain ⟨hyc, hys, hyr, hyw, hyp, hym⟩ := exitAwaited_fields x hg
  have hne : (exitAwaited x).control.mode ≠ .hold := by
    rw [hyc]
    dsimp only
    split <;> decide
  obtain ⟨hsafe, hramp, hmon⟩ := awaited_kept (y := exitAwaited x) .hold
  obtain ⟨hidle, hflight⟩ := awaited_writer .hold hne
  have hport := awaited_port .hold hne
  have hctl := awaited_control .hold hne (k := if x.queue = [] then .final else .draining)
    (by rw [hyc])
  rw [hyc, hyw] at hctl
  rw [hyw] at hidle hflight hport
  have himage : (exitAwaited x).shadow.mode = (if x.queue = [] then .closing else .drain) :=
    congrArg ModeController.mode hyc
  rw [htake] at ht
  rw [ht] at hsafe hramp hmon hidle hflight hport hctl
  have hmode : t.control.mode = if x.queue = [] then .closing else .drain := by rw [hctl]
  refine ⟨hmon.trans ((congrArg SupplyMonitor.state hym).trans hg), hctl, hsafe.trans hys, ?_, fun hq => hramp.trans (hyr hq),
    fun hi => ?_, hflight⟩
  · by_cases hq : x.queue = [] <;> simp [State.heldPin, hmode, hq]
  · rw [hidle hi, hmode, hsafe]
    exact ⟨rfl, rfl, himage, rfl, fun hq => hport hi (by rw [portQuiet, hyp]; exact hq)⟩

/-- Settles O39. -/
theorem safetyFollowsMonitor : Obligations.SafetyFollowsMonitor := by
  intro s v ht hv
  obtain ⟨timer, ht⟩ := Option.ne_none_iff_exists'.1 ht
  have hexec := exec_sample v ht
  have hev := sampled_notLow s hv
  have hclears := sampled_clears (v := v) (s := s)
  have hxm : (measured v timer.due s).monitor.state = (sampled v s).1.state := by
    rw [measured_monitor]
  have hxf := measured_frame v timer.due s
  generalize measured v timer.due s = x at hexec hxm hxf
  obtain ⟨-, hxq, hxc, hxp, hxs, hxw, -, hxsq, -⟩ := hxf
  generalize (sampled v s).2 = e at hexec hev hclears
  generalize (sampled v s).1.state = st at hxm hev hclears
  have hevents : e = .nothing ∨ e = .warn ∨ e = .clear :=
    hev.imp And.left (Or.imp And.left And.left)
  refine ⟨_, hexec, fun hm => ?_, fun hm => ?_, fun hm hh hw hc hf => ?_⟩
  · have hne : s.control.mode ≠ .hold := by rcases hm with hm | hm | hm <;> rw [hm] <;> decide
    rcases hev with ⟨rfl, hst⟩ | hev
    · have hnothing : takeSupplyEvent .nothing x = x := rfl
      rw [hnothing, afterEvent_same (s := x) (by rw [hxc]), hxm, hxc]
      exact ⟨rfl, hxsq, fun _ => ⟨hxs, hxw, hxp⟩, fun h => absurd hst h⟩
    · have hst : st ≠ s.monitor.state := by
        rcases hev with ⟨-, h1, h2⟩ | ⟨-, h1, h2⟩ <;> rw [h1, h2] <;> decide
      have hfol : takeSupplyEvent e x = followMonitor x :=
        takeSupplyEvent_follows (by rwa [hxc]) (hev.imp And.left And.left)
      obtain ⟨hmode, hseq, hmon, hsafe, hidle, hflight⟩ :=
        followMonitor_fields (s := x) (by rwa [hxc])
      rw [hxc] at hmode hidle
      rw [hxw] at hidle hflight
      rw [hfol, afterEvent_same hmode, hmon, hsafe, hxm, monitorSafety_eq] at *
      exact ⟨hmode, hseq.trans hxsq, fun h => absurd h hst, fun _ => ⟨rfl, hidle,
        fun n hn => ⟨(hflight n hn).1, (hflight n hn).2.trans hxp⟩⟩⟩
  · have hsame : takeSupplyEvent e x = x := by
      refine takeSupplyEvent_stays hevents ?_
      rw [hxc]
      refine hm.imp_right (Or.imp_right fun ⟨hhold, hno⟩ => ⟨hhold, fun he => ?_⟩)
      subst he
      have hst : s.monitor.state = .warned ∧ st = .good := by
        rcases hev with ⟨h, -⟩ | ⟨h, -⟩ | ⟨-, h⟩
        · cases h
        · cases h
        · exact h
      have hmon : (afterEvent s.control.mode (takeSupplyEvent .clear x)).monitor.state = st := by
        have htake : takeSupplyEvent .clear x = evaluateExit x := by
          show takeClear x = _
          unfold takeClear
          rw [hxc, hhold]
        rw [htake, evaluateExit_monitor_state, hxm]
      rw [hmon, hst.1, hst.2] at hno
      have hreq : s.control.hreq = true := by
        rcases hno with h | h | h
        · exact h
        · cases h
        · cases h
      simp [exitCondition, hxc, hreq]
    rw [hsame, afterEvent_same (s := x) (by rw [hxc])]
    exact ⟨hxc, hxs, hxw, hxp⟩
  · obtain ⟨he, hst⟩ := hclears hw hc hf
    have hleaves := clear_leavesHold (x := x) (by rw [hxc]; exact hm) (by rw [hxc]; exact hh)
      (hxm.trans hst) rfl
    rw [hxc, hxq, hxw, portQuiet, hxp] at hleaves
    rw [hm, he]
    exact hleaves

end Sys2Proof.Machine

/-! ## The drain engine's timers (R86, R89, R91, R93, R95) -/

namespace Sys2Proof.Machine

open Sys2Proof

set_option Elab.async false

/-- A head's write is what its claim answers (R15, R86). -/
theorem headClaim_of_headWrite {e : Entry} {w : DrainWrite} (rest : List Entry)
    (h : headWrite e w) : headClaim (e :: rest) = some (w, { e with state := .draining } :: rest) := by
  obtain ⟨body, st⟩ := e
  cases body with
  | data line bytes =>
    obtain ⟨o, b, more, rfl, rfl⟩ := h
    rfl
  | fence tag =>
    cases show w = _ from h
    rfl

/-- A claim on a quiet port in DRAIN: the head DRAINING and its write granted (R86, R106). -/
theorem claimHead_quiet {s : State} {e : Entry} {rest : List Entry} {w : DrainWrite}
    (hm : s.control.mode = .drain) (hq : s.queue = e :: rest) (hp : portQuiet s)
    (hw : headWrite e w) : claimHead s = { s with
      queue := { e with state := .draining } :: rest
      engine := { s.engine with state := .writing, outstanding := some w }
      port := quietGrant s .drain (.write w.addr w.byte) .drain
      memory := grantMemory s (.write w.addr w.byte) } := by
  unfold claimHead
  rw [hq, headClaim_of_headWrite rest hw]
  exact portRequest_quiet (s := { s with
      queue := { e with state := .draining } :: rest
      engine := { s.engine with state := .writing, outstanding := some w } })
    .drain (.write w.addr w.byte) hp (by simp [gateOpen, hm])

/-- A claim with no entry held is answered EMPTY (R93). -/
theorem claimHead_empty {s : State} (h : s.queue = []) :
    claimHead s = { s with engine := { s.engine with state := .emptyWait, outstanding := none } } := by
  unfold claimHead
  rw [h]
  rfl

/-- A WAIT with no gap and no awaited status write ends in a claim (R89). -/
theorem endWait_claims {s : State} (hs : s.engine.state = .wait) (hg : s.engine.gapTimer = none)
    (ha : s.engine.awaited = .nothing) : endWait s = claimHead s := if_pos ⟨hs, hg, ha⟩

/-- While a status write is awaited or a gap runs the WAIT goes on (R89). -/
theorem endWait_goesOn {s : State}
    (h : s.engine.state ≠ .wait ∨ s.engine.gapTimer ≠ none ∨ s.engine.awaited ≠ .nothing) :
    endWait s = s := by
  rw [endWait, if_neg]
  rintro ⟨hs, hg, ha⟩
  rcases h with h | h | h
  · exact h hs
  · exact h hg
  · exact h ha

theorem exec_gapExpiry {s : State} {due : Nat} (h : s.engine.gapTimer = some due) :
    exec .gapExpiry s = .next (endWait { s with
      now := max s.now due, engine := { s.engine with gapTimer := none } }) := by
  show execGapExpiry s = _
  rw [execGapExpiry, h]
  rfl

theorem exec_retryPauseExpiry {s : State} {due : Nat} (hs : s.engine.state = .pause)
    (h : s.engine.retryTimer = some due) :
    exec .retryPauseExpiry s = .next (claimHead { s with
      now := max s.now due, engine := { s.engine with retryTimer := none } }) := by
  show execRetryPauseExpiry s = _
  rw [execRetryPauseExpiry, h]
  dsimp only
  rw [if_pos hs]
  rfl

theorem exec_rampStep {s : State} {due : Nat} (h : s.engine.rampTimer = some due) :
    exec .rampStep s = .next (rampExpiry (s.reach due)) := by
  show execRampStep s = _
  rw [execRampStep, h]

/-- A step at level 0 leaves it there (R91). -/
theorem rampLevel_stepped (level : Nat) (c : SupplyClass) :
    (if level > 0 ∧ c = .good then level - 1 else level) = if c = .good then level - 1 else level := by
  by_cases hc : c = .good
  · simp only [hc, and_true, if_true]
    split <;> omega
  · simp [hc]

/-- Settles O40. -/
theorem drainTimersExpire : Obligations.DrainTimersExpire := by
  intro s due
  refine ⟨fun e rest w hm hq hp hw => ?_, fun hq => ⟨fun hs hg ha => ?_, fun hs hr => ?_⟩,
    fun hr => ?_⟩
  · intro claimed frame
    have hframe (u : State) (hm : u.memory = s.memory) (hp : u.pins = s.pins) :
        frame (grantMemory u (.write w.addr w.byte)) := fun a ha => by
      rw [memRead_grantMemory u _ a (.inr (by rwa [hp])), hm]
    refine ⟨fun hs hg ha => ?_, fun hs hg ha => ?_, fun hs hr => ?_⟩
    · rw [exec_gapExpiry hg]
      let u : State := { s with
        now := max s.now due, engine := { s.engine with gapTimer := none } }
      rw [endWait_claims (s := u) hs rfl ha, claimHead_quiet (s := u) hm hq hp hw]
      exact ⟨_, rfl, hframe u rfl rfl⟩
    · rw [exec_gapExpiry hg]
      exact congrArg Host.Outcome.next (endWait_goesOn (.inr (.inr ha)))
    · rw [exec_retryPauseExpiry hs hr]
      let u : State := { s with
        now := max s.now due, engine := { s.engine with retryTimer := none } }
      rw [claimHead_quiet (s := u) hm hq hp hw]
      exact ⟨_, rfl, hframe u rfl rfl⟩
  · rw [exec_gapExpiry hg]
    let u : State := { s with
      now := max s.now due, engine := { s.engine with gapTimer := none } }
    rw [endWait_claims (s := u) hs rfl ha, claimHead_empty (s := u) hq]
  · rw [exec_retryPauseExpiry hs hr]
    exact congrArg Host.Outcome.next (claimHead_empty hq)
  · rw [exec_rampStep hr, rampExpiry]
    simp only [reach_frame, rampLevel_stepped]
    rfl

end Sys2Proof.Machine

/-! ## Host writes: dispositions at once (chapter 2) -/

namespace Sys2Proof.Machine

open Sys2Proof

set_option Elab.async false

/-! ### The beginning of a write (R118, R126) -/

/-- The edge causes after the hand-over of an ack byte (R126, R136). -/
def ackedCauses (a : Addr) (b : Byte) (s : State) : Byte :=
  if a = 0xFFF10#20 then s.status.causes &&& ~~~b else s.status.causes

/-- The state in which a write begun on a ready port takes its disposition (R118, R126). -/
def writeTaken (a : Addr) (b : Byte) (s : State) : State := { s with
  pins := writePins s.pins a b
  host := hostAt s.host (.write a b) (.waiting .startUp)
  status := { s.status with causes := ackedCauses a b s } }

theorem driveWrite_working {s : State} (a : Addr) (b : Byte) (hr : hostReady s)
    (hm : s.control.mode ≠ .startup) : driveWrite a b s = decideWrite a b (writeTaken a b s) := by
  rw [driveWrite_ready a b hr]
  congr 1
  unfold handOver writeTaken ackedCauses
  dsimp only
  by_cases ha : a = 0xFFF10#20
  · rw [if_pos ⟨ha, hm⟩, if_pos ha]
    rfl
  · rw [if_neg fun h => ha h.1, if_neg ha]

/-- In STARTUP no ack byte is handed over, and every write waits (R126, R32). -/
theorem driveWrite_startup {s : State} (a : Addr) (b : Byte) (hr : hostReady s)
    (hm : s.control.mode = .startup) : driveWrite a b s = { s with
      pins := writePins s.pins a b
      host := hostAt s.host (.write a b) (.waiting .startUp) } := by
  rw [driveWrite_ready a b hr]
  unfold handOver
  dsimp only
  rw [if_neg fun h => h.2 hm, decideWrite, if_pos hm]
  rfl

/-- The commands that write an address with a byte (Table 0-1). -/
def writesAs (c : Instr) (a : Addr) (b : Byte) : Prop :=
  c = .hostWrite a b ∨ c = .ackWrite b ∧ a = 0xFFF10#20 ∨ c = .fenceWrite b ∧ a = 0xFFF11#20 ∨
    c = .generationWrite b ∧ a = 0xFFF22#20 ∨
    ∃ n : Offset, c = .statusLineWrite n b ∧ a = 0xFFF0#16 ++ n

theorem exec_write {c : Instr} {a : Addr} {b : Byte} (h : writesAs c a b) (s : State) :
    exec c s = .next (driveWrite a b s) := by
  rcases h with rfl | ⟨rfl, rfl⟩ | ⟨rfl, rfl⟩ | ⟨rfl, rfl⟩ | ⟨n, rfl, rfl⟩ <;> rfl

/-- A write command on a ready port outside STARTUP. -/
theorem exec_write_working {c : Instr} {a : Addr} {b : Byte} {s : State} (h : writesAs c a b)
    (hr : hostReady s) (hm : s.control.mode ≠ .startup) :
    exec c s = .next (decideWrite a b (writeTaken a b s)) := by
  rw [exec_write h, driveWrite_working a b hr hm]

/-- Off the ack byte nothing is handed over (R126). -/
theorem writeTaken_notAck {a : Addr} (b : Byte) (s : State) (h : a ≠ 0xFFF10#20) :
    writeTaken a b s = { s with
      pins := writePins s.pins a b
      host := hostAt s.host (.write a b) (.waiting .startUp) } := by
  rw [writeTaken, ackedCauses, if_neg h]

/-- The status line is in the control window (R31). -/
theorem inStatusLine_of_notWindow {a : Addr} (h : inWindow a = false) : inStatusLine a = false := by
  by_contra hl
  have hline : lineOf a = statusLine := by simpa [inStatusLine] using hl
  rw [inWindow, hline] at h
  simp at h

theorem ne_of_notWindow {a w : Addr} (h : inWindow a = false) (hw : inWindow w = true) : a ≠ w := by
  rintro rfl
  rw [h] at hw
  cases hw

/-! ### The five tests of R32 -/

section Dispositions

variable {s : State} {a : Addr} (b : Byte) (hm : s.control.mode ≠ .startup)

include hm

theorem decideWrite_reload (hr : s.descriptor.reading = true) :
    decideWrite a b s = setStage (.waiting .reload) s := by
  rw [decideWrite, if_neg hm, if_pos hr]

variable (hr : s.descriptor.reading = false)

include hr

theorem decideWrite_statusLine (hl : inStatusLine a = true) : decideWrite a b s = rejectWrite s := by
  rw [decideWrite, if_neg hm, if_neg (by simp [hr]), if_pos hl]

theorem decideWrite_window (hl : inStatusLine a = false) (hw : inWindow a = true) :
    decideWrite a b s = decideWindow a b s := by
  rw [decideWrite, if_neg hm, if_neg (by simp [hr]), if_neg (by simp [hl]), if_pos hw]

theorem decideWrite_region (hw : inWindow a = false) : decideWrite a b s =
    decideRegion (s.config.lookup (lineOf a)).1 (s.config.lookup (lineOf a)).2 a b s := by
  rw [decideWrite, if_neg hm, if_neg (by simp [hr]),
    if_neg (by simp [inStatusLine_of_notWindow hw]), if_neg (by simp [hw])]

theorem decideWrite_readonly (hw : inWindow a = false)
    (hp : (s.config.lookup (lineOf a)).1 = .readonly) : decideWrite a b s = rejectWrite s := by
  rw [decideWrite_region b hm hr hw, hp]
  unfold decideRegion
  cases h : s.control.mode with
  | startup => exact absurd h hm
  | _ => rfl

end Dispositions

/-- Settles O20. -/
theorem refusedWriteIsAnsweredErr : Obligations.RefusedWriteIsAnsweredErr := by
  intro s b hr hm hread
  refine ⟨fun n => ?_, fun a hw hp => ?_⟩
  · have hne : ∀ n : Offset, (0xFFF0#16 ++ n : Addr) ≠ 0xFFF10#20 := by decide
    rw [exec_write_working (.inr (.inr (.inr (.inr ⟨n, rfl, rfl⟩)))) hr hm,
      writeTaken_notAck b s (hne n), decideWrite_statusLine (a := 0xFFF0#16 ++ n) (s := { s with
        pins := writePins s.pins (0xFFF0#16 ++ n) b
        host := hostAt s.host (.write (0xFFF0#16 ++ n) b) (.waiting .startUp) })
        b hm hread (inStatusLine_statusAddr n), rejectWrite_waiting rfl]
    rfl
  · rw [exec_write_working (.inl rfl) hr hm, writeTaken_notAck b s (ne_of_notWindow hw (by decide)),
      decideWrite_readonly (s := { s with
        pins := writePins s.pins a b
        host := hostAt s.host (.write a b) (.waiting .startUp) }) b hm hread hw hp,
      rejectWrite_waiting rfl]
    rfl

/-! ### Pass through (R34 to R36, R39) -/

/-- In NORMAL every write but one to a READONLY line or the status line passes through (Tables 2-2
and 2-3). -/
theorem decideWrite_normal {s : State} {a : Addr} (b : Byte) (hm : s.control.mode = .normal)
    (hr : s.descriptor.reading = false)
    (h : (inWindow a = false ∧ (s.config.lookup (lineOf a)).1 ≠ .readonly) ∨
      (inWindow a = true ∧ inStatusLine a = false)) : decideWrite a b s = passThrough a b s := by
  have hne : s.control.mode ≠ .startup := by rw [hm]; decide
  rcases h with ⟨hw, hp⟩ | ⟨hw, hl⟩
  · rw [decideWrite_region b hne hr hw]
    unfold decideRegion
    rw [hm]
    cases h : (s.config.lookup (lineOf a)).1 with
    | readonly => exact absurd h hp
    | _ => rfl
  · rw [decideWrite_window b hne hr hl hw, decideWindow, hm]

/-- A write command that passes through on a quiet port in NORMAL (R125, R104). -/
theorem exec_write_normal {c : Instr} {a : Addr} {b : Byte} {s : State} (hc : writesAs c a b)
    (hr : hostReady s) (hm : s.control.mode = .normal) (hread : s.descriptor.reading = false)
    (hq : portQuiet s)
    (h : (inWindow a = false ∧ (s.config.lookup (lineOf a)).1 ≠ .readonly) ∨
      (inWindow a = true ∧ inStatusLine a = false)) :
    exec c s = .next { s with
      pins := writePins s.pins a b
      host := hostAt s.host (.write a b) .onPort
      port := quietGrant s .host (.write a b) .host
      status := { s.status with causes := ackedCauses a b s }
      memory := grantMemory s (.write a b) } := by
  have hpass := decideWrite_normal (s := writeTaken a b s) b hm hread h
  have hgrant := hostRequest_quiet (s := writeTaken a b s) (op := .write a b) hr.2.2.2.1 rfl hq
    (show gateOpen s.control.mode .host (.write a b) = true by rw [hm]; rfl)
  rw [exec_write_working hc hr (by rw [hm]; decide), hpass, passThrough, hgrant]
  rfl

/-- Settles O21. -/
theorem writePassesThroughInNormal : Obligations.WritePassesThroughInNormal := by
  intro s b hr hm hread hq passed frame
  have hframe (a : Addr) : frame a (grantMemory s (.write a b)) := fun a' ha' =>
    memRead_grantMemory s _ a' (.inr ha')
  have hexec {c : Instr} {a : Addr} (hc : writesAs c a b) := exec_write_normal hc hr hm hread hq
  refine ⟨fun a ha => ⟨_, ?_, hframe a⟩, ⟨_, ?_, hframe _⟩, ⟨_, ?_, hframe _⟩, ⟨_, ?_, hframe _⟩⟩
  · have hack : ackedCauses a b s = s.status.causes := by
      refine if_neg ?_
      rcases ha with ⟨hw, -⟩ | ⟨-, -, hne⟩
      · exact ne_of_notWindow hw (by decide)
      · exact hne
    rw [hexec (.inl rfl) (ha.imp_right fun ⟨hw, hl, _⟩ => ⟨hw, hl⟩), hack]
  · rw [hexec (.inr (.inl ⟨rfl, rfl⟩)) (.inr ⟨by decide, by decide⟩)]
    rfl
  · rw [hexec (.inr (.inr (.inl ⟨rfl, rfl⟩))) (.inr ⟨by decide, by decide⟩)]
    rfl
  · rw [hexec (.inr (.inr (.inr (.inl ⟨rfl, rfl⟩)))) (.inr ⟨by decide, by decide⟩)]
    rfl

/-! ### Stalls (R40) -/

section Stall

variable {s : State} {op : BusOp} {st : Stage} (h : s.host.access = some ⟨op, st, false⟩)
  (k : StallKind)

include h

/-- A stall runs under the stall timer (R40). -/
theorem beginStall_stalls (hl : s.config.stallLimit ≠ 0#8) :
    beginStall k s = { s with host := ⟨some ⟨op, .stalled k, false⟩,
      some (s.now + 64 * s.config.stallLimit.toNat), s.host.rstHigh, s.host.orphan⟩ } := by
  unfold beginStall
  dsimp only
  rw [if_neg hl, setStage_some _ (s := { s with host := { s.host with
    stallTimer := some (s.now + stallUnit * s.config.stallLimit.toNat) } }) h]
  rfl

/-- With a stall limit of 0 the write is rejected at once (R40). -/
theorem beginStall_rejects (hl : s.config.stallLimit = 0#8) :
    beginStall k s = { s with
      host := { s.host with access := some ⟨op, .answered .err, false⟩ }
      status := rejectedStatus s.status } := by
  unfold beginStall
  dsimp only
  rw [if_pos hl, rejectWrite_waiting h]

end Stall

/-- In CLOSING every write but one to a READONLY line or the status line waits (R38). -/
theorem decideWrite_closing {s : State} {a : Addr} (b : Byte) (hm : s.control.mode = .closing)
    (hr : s.descriptor.reading = false) (hl : inStatusLine a = false)
    (h : inWindow a = true ∨ (s.config.lookup (lineOf a)).1 ≠ .readonly) :
    decideWrite a b s = setStage (.waiting .closing) s := by
  have hne : s.control.mode ≠ .startup := by rw [hm]; decide
  cases hw : inWindow a with
  | true => rw [decideWrite_window b hne hr hl hw, decideWindow, hm]
  | false =>
    rw [decideWrite_region b hne hr hw]
    unfold decideRegion
    rw [hm]
    cases hp : (s.config.lookup (lineOf a)).1 with
    | readonly => rw [hw, hp] at h; simp at h
    | _ => rfl

theorem queueingMode_iff {m : Mode} :
    queueingMode m = true ↔ m = .entering ∨ m = .hold ∨ m = .drain := by
  cases m <;> simp [queueingMode]

theorem ne_startup_of_queueing {m : Mode} (h : queueingMode m = true) : m ≠ .startup := by
  rintro rfl
  cases h

/-- In the queueing modes a BLOCK write stalls (R35). -/
theorem decideWrite_block {s : State} {a : Addr} (b : Byte)
    (hm : queueingMode s.control.mode = true) (hr : s.descriptor.reading = false)
    (hw : inWindow a = false) (hp : (s.config.lookup (lineOf a)).1 = .block) :
    decideWrite a b s = beginStall .block s := by
  have hne := ne_startup_of_queueing hm
  rw [decideWrite_region b hne hr hw, hp]
  unfold decideRegion
  rcases queueingMode_iff.1 hm with h | h | h <;> rw [h]

/-- In ENTERING and HOLD a DISCARD write is discarded (R36). -/
theorem decideWrite_discard {s : State} {a : Addr} (b : Byte)
    (hm : s.control.mode = .entering ∨ s.control.mode = .hold) (hr : s.descriptor.reading = false)
    (hw : inWindow a = false) (hp : (s.config.lookup (lineOf a)).1 = .discard) :
    decideWrite a b s = discardWrite s := by
  have hne : s.control.mode ≠ .startup := by rcases hm with h | h <;> rw [h] <;> decide
  rw [decideWrite_region b hne hr hw, hp]
  unfold decideRegion
  rcases hm with h | h <;> rw [h]

/-- A saturating count's step, written out (R133). -/
theorem saturate_eq (n : Byte) : saturate n = if n = 0xFF#8 then 0xFF#8 else n + 1#8 := by
  unfold saturate
  split
  · next h => exact h
  · rfl

/-- A discarded write is answered done with its notice (R36, R44). -/
theorem discardWrite_waiting {s : State} {op : BusOp} {st : Stage}
    (h : s.host.access = some ⟨op, st, false⟩) : discardWrite s = { s with
      host := { s.host with access := some ⟨op, .answered .done, false⟩ }
      status := { s.status with
        discarded := if s.status.discarded = 0xFF#8 then 0xFF#8 else s.status.discarded + 1#8 } } := by
  rw [discardWrite, answerHost_waiting _ (s := countDiscarded s) h, ← saturate_eq]
  rfl

/-- Settles O26. -/
theorem otherWriteDispositions : Obligations.OtherWriteDispositions := by
  intro s a b c hr hc waits acked
  have hexec (hm : s.control.mode ≠ .startup) := exec_write_working (s := s) hc hr hm
  refine ⟨fun hm => ?_, fun hm hread => ?_, fun hm hread hl hp => ?_, fun hw hread hm hp => ?_,
    fun hw hread hm hp => ?_⟩
  · rw [exec_write hc, driveWrite_startup a b hr hm]
  · rw [hexec hm, decideWrite_reload (s := writeTaken a b s) b hm hread]
    rfl
  · rw [hexec (by rw [hm]; decide), decideWrite_closing (s := writeTaken a b s) b hm hread hl hp]
    rfl
  · have hne := ne_startup_of_queueing hm
    have hblock := decideWrite_block (s := writeTaken a b s) b hm hread hw hp
    have hack := writeTaken_notAck b s (ne_of_notWindow hw (by decide : inWindow 0xFFF10#20 = true))
    refine ⟨fun hl => ?_, fun hl => ?_⟩
    · rw [hexec hne, hblock, beginStall_stalls (s := writeTaken a b s) rfl _ hl, hack]
      rfl
    · rw [hexec hne, hblock, beginStall_rejects (s := writeTaken a b s) rfl _ hl, hack]
      rfl
  · have hne : s.control.mode ≠ .startup := by rcases hm with h | h <;> rw [h] <;> decide
    have hack := writeTaken_notAck b s (ne_of_notWindow hw (by decide : inWindow 0xFFF10#20 = true))
    rw [hexec hne, decideWrite_discard (s := writeTaken a b s) b hm hread hw hp,
      discardWrite_waiting (s := writeTaken a b s) rfl, hack]
    rfl

end Sys2Proof.Machine

/-! ## Host writes: queued (chapter 1, R34) -/

namespace Sys2Proof.Machine

open Sys2Proof

set_option Elab.async false

/-! ### What the queue makes of a presented write -/

/-- The state with a write taken into the queue, the merged notice sent exactly for a merge (R44). -/
def tookIn (q : List Entry) (merged : Bool) (s : State) : State := { s with
  queue := q
  status := { s.status with
    merged := if merged then s.status.merged + 1#16 else s.status.merged } }

/-- The state with a queued write answered done, with its deferred notice (R44). -/
def deferredDone (op : BusOp) (s : State) : State := { s with
  host := { s.host with access := some ⟨op, .answered .done, false⟩ }
  status := { s.status with deferred := s.status.deferred + 1#16 } }

/-- No reload follows: the byte is not the generation byte, or it is the applied generation (R155). -/
def noReload (a : Addr) (b : Byte) (s : State) : Prop :=
  a ≠ generationAddr ∨ (b = s.descriptor.generation ∧ s.descriptor.reading = false)

theorem generationNotice_same {b : Byte} {s : State} (hb : b = s.descriptor.generation)
    (hr : s.descriptor.reading = false) : generationNotice b s = s := by
  rw [generationNotice, if_neg (by simp [hr]), if_neg (not_not.2 hb)]

/-- A queued write without a reload is answered done (R34). -/
theorem acceptQueued_done {a : Addr} {b : Byte} {s : State} {op : BusOp} {st : Stage}
    (hacc : s.host.access = some ⟨op, st, false⟩) (h : noReload a b s) :
    acceptQueued a b s = deferredDone op s := by
  unfold acceptQueued
  dsimp only
  rw [answerHost_waiting _ (s := countDeferred s) hacc]
  split
  · next ha =>
    obtain ⟨hb, hr⟩ := h.resolve_left (not_not.2 ha)
    exact generationNotice_same (s := deferredDone op s) hb hr
  · rfl

/-- The engine does not wake: it is not in EMPTY_WAIT, or the queue is full and nothing is appended (R93). -/
def noWake (s : State) : Prop := s.engine.state ≠ .emptyWait ∨ s.queue.length = 32

theorem wakeEngine_resting {s : State} (h : s.engine.state ≠ .emptyWait) : wakeEngine s = s := by
  rw [wakeEngine, if_neg fun hw => h hw.1]

/-- With no wake an append is followed by the answer alone (R8, R34). -/
theorem appendTaken_resting {a : Addr} {b : Byte} {s : State} (h : s.engine.state ≠ .emptyWait) :
    appendTaken a b s = acceptQueued a b s := by
  rw [appendTaken, requestsMeet_false (.inr (.inr (.inr h))), if_neg (by decide),
    wakeEngine_resting h]

/-- A write request that finds room is taken (R7, R8). -/
theorem takeIntoQueue_takes {a : Addr} {b : Byte} {merge : Bool} {s : State} (hf : a ≠ fenceAddr)
    (hw : noWake s) (h : queueRoom s.queue a merge) :
    ∃ q merged, takeIntoQueue a b merge s = some (acceptQueued a b (tookIn q merged s)) ∧
      queueTakes s.queue a b merge q merged := by
  obtain ⟨q, merged, hreq, htakes⟩ := writeRequest_takes b h
  refine ⟨q, merged, ?_, htakes⟩
  unfold takeIntoQueue presentToQueue
  rw [if_neg hf, hreq]
  cases merged with
  | true => rfl
  | false =>
    have hrest : s.engine.state ≠ .emptyWait := by
      refine hw.resolve_right fun hl => ?_
      rcases h with h | h
      · omega
      · exact absurd (htakes.1.2 h) (by decide)
    exact congrArg some (appendTaken_resting (s := { s with queue := q }) hrest)

/-- A fence request that finds a slot is appended (R13). -/
theorem takeIntoQueue_fence {b : Byte} {merge : Bool} {s : State} (hw : s.engine.state ≠ .emptyWait)
    (h : s.queue.length < 32) : takeIntoQueue fenceAddr b merge s = some
      (acceptQueued fenceAddr b (tookIn (s.queue ++ [⟨.fence b, .pending⟩]) false s)) := by
  unfold takeIntoQueue presentToQueue fenceRequest appendEntry
  rw [if_pos rfl, if_pos (by exact h)]
  exact congrArg some (appendTaken_resting
    (s := { s with queue := s.queue ++ [⟨.fence b, .pending⟩] }) hw)

/-- A write that finds 32 entries and does not merge is answered NO_SLOT (R9, R13). -/
theorem takeIntoQueue_full {a : Addr} {b : Byte} {merge : Bool} {s : State}
    (hl : s.queue.length = 32) (h : ¬ (a ≠ fenceAddr ∧ merge = true ∧ mergeable s.queue (lineOf a))) :
    takeIntoQueue a b merge s = none := by
  have happ (body : EntryBody) : appendEntry s.queue body = (.noSlot, s.queue) := by
    rw [appendEntry, if_neg (by rw [hl]; decide)]
  have hp : presentToQueue s.queue a b merge = (.noSlot, s.queue) := by
    unfold presentToQueue
    split
    · exact happ _
    · next hf =>
      rcases writeRequest_cases s.queue a b merge with ⟨q', hm, hi, -⟩ | ⟨-, he⟩
      · refine absurd ⟨hf, hm, ?_⟩ h
        exact (mergeable_iff (offsetOf a) b).2 (by rw [hi]; rfl)
      · rw [he, happ]
  unfold takeIntoQueue
  rw [hp]

/-! ### The disposition to queue (Tables 2-2 and 2-3) -/

/-- The lines and modes whose writes are queued. -/
def queuesIn (s : State) (a : Addr) : Prop :=
  (inWindow a = true ∧ inStatusLine a = false) ∨ (inWindow a = false ∧
    ((s.config.lookup (lineOf a)).1 = .defer ∨
      ((s.config.lookup (lineOf a)).1 = .discard ∧ s.control.mode = .drain)))

/-- The merge flag of a line (R31, R30). -/
def mergeFlag (s : State) (a : Addr) : Bool :=
  if inWindow a then true else (s.config.lookup (lineOf a)).2

theorem decideWrite_queues {s : State} {a : Addr} (b : Byte)
    (hm : queueingMode s.control.mode = true) (hr : s.descriptor.reading = false)
    (h : queuesIn s a) : decideWrite a b s = queueWrite a b (mergeFlag s a) s := by
  have hne := ne_startup_of_queueing hm
  unfold mergeFlag
  rcases h with ⟨hw, hl⟩ | ⟨hw, hp⟩
  · rw [decideWrite_window b hne hr hl hw, decideWindow, hw, if_pos rfl]
    rcases queueingMode_iff.1 hm with h | h | h <;> rw [h]
  · rw [decideWrite_region b hne hr hw, hw, if_neg (by decide)]
    unfold decideRegion
    rcases hp with hp | ⟨hp, hd⟩
    · rw [hp]
      rcases queueingMode_iff.1 hm with h | h | h <;> rw [h]
    · rw [hp, hd]

section Queued

variable {s : State} {c : Instr} {a : Addr} {b : Byte} (hc : writesAs c a b) (hr : hostReady s)
  (hm : queueingMode s.control.mode = true) (hread : s.descriptor.reading = false)
  (hq : queuesIn s a)

include hc hr hm hread hq

/-- A write command whose disposition is to queue (R34). -/
theorem exec_write_queues :
    exec c s = .next (queueWrite a b (mergeFlag s a) (writeTaken a b s)) := by
  rw [exec_write_working hc hr (ne_startup_of_queueing hm),
    decideWrite_queues (s := writeTaken a b s) b hm hread hq]
  rfl

/-- A queued write that finds room, without a wake and without a reload (R7, R8, R44). -/
theorem exec_write_taken (hf : a ≠ fenceAddr) (hw : noWake s) (hn : noReload a b s)
    (hroom : queueRoom s.queue a (mergeFlag s a)) :
    ∃ q merged, exec c s = .next (deferredDone (.write a b) (tookIn q merged (writeTaken a b s))) ∧
      queueTakes s.queue a b (mergeFlag s a) q merged := by
  obtain ⟨q, merged, htake, htakes⟩ :=
    takeIntoQueue_takes (b := b) (s := writeTaken a b s) hf hw hroom
  refine ⟨q, merged, ?_, htakes⟩
  rw [exec_write_queues hc hr hm hread hq, queueWrite, htake]
  exact congrArg Host.Outcome.next
    (acceptQueued_done (s := tookIn q merged (writeTaken a b s)) rfl hn)

end Queued

/-! ### A write that wakes the engine (R93) -/

/-- The address of an offset of its own line. -/
theorem addrOf_lineOf (a : Addr) : addrOf (lineOf a) (offsetOf a) = a :=
  addr_ext (lineOf_addrOf _ _) (offsetOf_addrOf _ (offsetOf_lt a))

/-- What a write appended to an empty queue is claimed as. -/
theorem headWrite_data (a : Addr) (b : Byte) (st : EntryState) :
    headWrite ⟨.data (lineOf a) [(offsetOf a, b)], st⟩ ⟨false, a, b⟩ :=
  ⟨offsetOf a, b, [], rfl, by
    show (⟨false, a, b⟩ : DrainWrite) = ⟨false, addrOf (lineOf a) (offsetOf a), b⟩
    rw [addrOf_lineOf]⟩

/-- The entry that a write appended to an empty queue makes (R8, R13). -/
def newEntry (a : Addr) (b : Byte) : EntryBody :=
  if a = fenceAddr then .fence b else .data (lineOf a) [(offsetOf a, b)]

theorem presentToQueue_empty (a : Addr) (b : Byte) (merge : Bool) :
    presentToQueue [] a b merge = (.appended, [⟨newEntry a b, .pending⟩]) := by
  unfold presentToQueue newEntry
  split
  · rfl
  · cases merge <;> rfl

theorem headWrite_newEntry (a : Addr) (b : Byte) (st : EntryState) :
    headWrite ⟨newEntry a b, st⟩ ⟨decide (a = fenceAddr), a, b⟩ := by
  unfold newEntry
  split
  · next h => subst h; rfl
  · next h =>
    rw [decide_eq_false h]
    exact headWrite_data a b st

/-- The state with a write appended to an empty queue and claimed at once (R8, R93). -/
def claimedAtOnce (a : Addr) (b : Byte) (s : State) : State := { s with
  queue := [⟨newEntry a b, .draining⟩]
  engine := { s.engine with
    state := .writing, outstanding := some ⟨decide (a = fenceAddr), a, b⟩ }
  port := quietGrant s .drain (.write a b) .drain
  memory := grantMemory s (.write a b) }

theorem wakeEngine_claims {s : State} (a : Addr) (b : Byte) (he : s.engine.state = .emptyWait)
    (hm : s.control.mode = .drain) (hp : portQuiet s) :
    wakeEngine { s with queue := [⟨newEntry a b, .pending⟩] } = claimedAtOnce a b s := by
  rw [wakeEngine, if_pos ⟨he, by simp⟩]
  exact claimHead_quiet (s := { s with queue := [⟨newEntry a b, .pending⟩] }) hm rfl hp
    (headWrite_newEntry a b .pending)

/-- A queued write in EMPTY_WAIT, without a reload (R8, R93, R44). -/
theorem exec_write_claimed {s : State} {c : Instr} {a : Addr} {b : Byte} (hc : writesAs c a b)
    (hr : hostReady s) (hm : s.control.mode = .drain) (hread : s.descriptor.reading = false)
    (hq : queuesIn s a) (hn : noReload a b s) (he : s.engine.state = .emptyWait)
    (hqe : s.queue = []) (hp : portQuiet s) : exec c s =
      .next (deferredDone (.write a b) (claimedAtOnce a b (writeTaken a b s))) := by
  have hmeet : requestsMeet a b { writeTaken a b s with
      queue := [⟨newEntry a b, .pending⟩] } = false := by
    refine requestsMeet_false (hn.imp_right fun h => .inl h.1)
  rw [exec_write_queues hc hr (by rw [hm]; rfl) hread hq, queueWrite, takeIntoQueue,
    show (writeTaken a b s).queue = [] from hqe, presentToQueue_empty]
  dsimp only
  rw [appendTaken, hmeet, if_neg (by decide),
    wakeEngine_claims (s := writeTaken a b s) a b he hm hp]
  exact congrArg Host.Outcome.next
    (acceptQueued_done (s := claimedAtOnce a b (writeTaken a b s)) rfl hn)

/-! ### The obligations -/

/-- Settles O22. -/
theorem heldWriteShadowsMemory : Obligations.HeldWriteShadowsMemory := by
  intro s a b hr hm hread hw hp
  have hq : queuesIn s a := .inr ⟨hw, hp⟩
  have hack := ne_of_notWindow hw (by decide : inWindow 0xFFF10#20 = true)
  have hf : a ≠ fenceAddr := ne_of_notWindow hw (by decide)
  have hn : noReload a b s := .inl (ne_of_notWindow hw (by decide))
  have hflag : mergeFlag s a = (s.config.lookup (lineOf a)).2 := if_neg (by simp [hw])
  refine ⟨fun he hqe hd hport => ?_, fun he hroom => ?_⟩
  · refine ⟨grantMemory s (.write a b), ?_, fun a' ha' => memRead_grantMemory s _ a' (.inr ha')⟩
    rw [exec_write_claimed (.inl rfl) hr hd hread hq hn he hqe hport, writeTaken_notAck b s hack,
      claimedAtOnce, newEntry, if_neg hf, decide_eq_false hf]
    rfl
  · rw [← hflag] at hroom
    obtain ⟨q, merged, hexec, htakes⟩ :=
      exec_write_taken (.inl rfl) hr hm hread hq hf (.inl he) hn hroom
    refine ⟨q, merged, ?_, by rwa [hflag] at htakes⟩
    rw [hexec, writeTaken_notAck b s hack]
    rfl

/-- Settles O23. -/
theorem heldWindowWrites : Obligations.HeldWindowWrites := by
  intro s b hr hm hread held claimed acked other
  have hdefer (a : Addr) (q : List Entry) (merged : Bool) :
      deferredDone (.write a b) (tookIn q merged (writeTaken a b s)) =
        held a q (ackedCauses a b s) merged := rfl
  have hother {a : Addr} {c : Instr} (h : other a c) :
      writesAs c a b ∧ queuesIn s a ∧ a ≠ fenceAddr ∧ noReload a b s ∧ mergeFlag s a = true ∧
        ackedCauses a b s = s.status.causes := by
    obtain ⟨hw, hl, hnack, hnf, h⟩ := h
    refine ⟨?_, .inl ⟨hw, hl⟩, hnf, ?_, if_pos hw, if_neg hnack⟩
    · rcases h with ⟨-, rfl⟩ | ⟨rfl, -, rfl⟩
      · exact .inl rfl
      · exact .inr (.inr (.inr (.inl ⟨rfl, rfl⟩)))
    · rcases h with ⟨hng, -⟩ | ⟨-, hb, -⟩
      · exact .inl hng
      · exact .inr ⟨hb, hread⟩
  have hfence : writesAs (.fenceWrite b) 0xFFF11#20 b := .inr (.inr (.inl ⟨rfl, rfl⟩))
  have hackw : writesAs (.ackWrite b) 0xFFF10#20 b := .inr (.inl ⟨rfl, rfl⟩)
  have hqf : queuesIn s 0xFFF11#20 := .inl ⟨by decide, by decide⟩
  have hqa : queuesIn s 0xFFF10#20 := .inl ⟨by decide, by decide⟩
  refine ⟨fun he => ⟨fun hl => ?_, fun hroom => ?_, fun a c ho hroom => ?_⟩,
    ?_⟩
  · have htake := takeIntoQueue_fence (b := b) (merge := mergeFlag s 0xFFF11#20)
      (s := writeTaken 0xFFF11#20 b s) he hl
    rw [exec_write_queues hfence hr hm hread hqf, queueWrite]
    change Host.Outcome.next (match takeIntoQueue fenceAddr b _ _ with | some s' => s' | none => _) = _
    rw [htake]
    exact congrArg Host.Outcome.next (acceptQueued_done rfl (.inl (by decide)))
  · obtain ⟨q, merged, hexec, htakes⟩ := exec_write_taken hackw hr hm hread hqa (by decide) (.inl he)
      (.inl (by decide)) hroom
    exact ⟨q, merged, hexec, htakes⟩
  · obtain ⟨hc, hq, hf, hn, hflag, hack⟩ := hother ho
    rw [← hflag] at hroom
    obtain ⟨q, merged, hexec, htakes⟩ := exec_write_taken hc hr hm hread hq hf (.inl he) hn hroom
    refine ⟨q, merged, ?_, by rwa [hflag] at htakes⟩
    rw [hexec, hdefer, hack]
  · intro he hqe hd hp frame
    have hframe (a : Addr) : frame a (grantMemory s (.write a b)) := fun a' ha' =>
      memRead_grantMemory s _ a' (.inr ha')
    refine ⟨⟨_, ?_, hframe _⟩, ⟨_, ?_, hframe _⟩, fun a c ho => ⟨_, ?_, hframe a⟩⟩
    · rw [exec_write_claimed hfence hr hd hread hqf (.inl (by decide)) he hqe hp]
      rfl
    · rw [exec_write_claimed hackw hr hd hread hqa (.inl (by decide)) he hqe hp]
      rfl
    · obtain ⟨hc, hq, hf, hn, -, hack⟩ := hother ho
      rw [exec_write_claimed hc hr hd hread hq hn he hqe hp, claimedAtOnce, newEntry, if_neg hf]
      rw [show writeTaken a b s = { writeTaken a b s with
        status := { s.status with causes := s.status.causes } } by rw [writeTaken, hack]]
      rfl

/-- Settles O25. -/
theorem fullQueueStallsWrite : Obligations.FullQueueStallsWrite := by
  intro s a b c hr hm hread hl hc hq merge merges acked
  have hcw : writesAs c a b := hc.imp_right (Or.imp_right (Or.imp_right .inl))
  have hexec := exec_write_queues hcw hr hm hread hq
  have hstall (hn : ¬ merges) : exec c s =
      .next (beginStall (.slot merge) (setCause .queueFull (writeTaken a b s))) := by
    have htake := takeIntoQueue_full (a := a) (b := b) (merge := mergeFlag s a)
      (s := writeTaken a b s) hl hn
    rw [hexec, queueWrite, htake]
    rfl
  refine ⟨fun hmg hg => ?_, fun hmg hlim => ?_, fun hmg hlim => ?_⟩
  · have hroom : queueRoom s.queue a (mergeFlag s a) := .inr hmg.2
    have hn : noReload a b s := hg.imp_right fun hb => ⟨hb, hread⟩
    obtain ⟨q, merged, he, htakes⟩ :=
      exec_write_taken hcw hr hm hread hq hmg.1 (.inr hl) hn hroom
    have hmerged : merged = true := htakes.1.2 hmg.2
    subst hmerged
    exact ⟨q, he, htakes⟩
  · rw [hstall hmg, beginStall_stalls (s := setCause .queueFull (writeTaken a b s)) rfl _ hlim]
    rfl
  · rw [hstall hmg, beginStall_rejects (s := setCause .queueFull (writeTaken a b s)) rfl _ hlim]
    rfl

end Sys2Proof.Machine

/-! ## Readings of the descriptor (R155 to R159) -/

namespace Sys2Proof.Machine

open Sys2Proof

set_option Elab.async false

/-! ### The bytes that hit (R157) -/

/-- A lookup from the `k`th byte on takes every byte that hits, up to the first miss or the last byte. -/
theorem gatherHeld_take {q : List Entry} {base : Addr} {bs : List Byte} {total : Nat}
    (hhit : ∀ i < bs.length, overlay q (base + BitVec.ofNat 20 i) = some (bs.getD i 0#8))
    (hend : bs.length = total ∨
      bs.length < total ∧ overlay q (base + BitVec.ofNat 20 bs.length) = none) (fuel : Nat) :
    ∀ k, k ≤ bs.length → bs.length ≤ k + fuel → gatherHeld q base total fuel (bs.take k) = bs := by
  induction fuel with
  | zero => intro k _ h; exact List.take_of_length_le h
  | succ fuel ih =>
    intro k hk hf
    have hlen : (bs.take k).length = k := by simp [hk]
    rw [gatherHeld, hlen]
    rcases Nat.lt_or_eq_of_le hk with hlt | rfl
    · have htot : k < total := by omega
      rw [if_pos htot, hhit k hlt]
      dsimp only
      have hsnoc : bs.take k ++ [bs.getD k 0#8] = bs.take (k + 1) := by
        rw [List.getD_eq_getElem _ _ hlt, List.take_append_getElem]
      rw [hsnoc]
      exact ih (k + 1) hlt (by omega)
    · rw [List.take_length]
      rcases hend with hend | ⟨hlt, hmiss⟩
      · rw [if_neg (by omega)]
      · rw [if_pos hlt, hmiss]

theorem gatherHeld_hits {q : List Entry} {base : Addr} {bs : List Byte} {total : Nat}
    (hhit : ∀ i < bs.length, overlay q (base + BitVec.ofNat 20 i) = some (bs.getD i 0#8))
    (hend : bs.length = total ∨
      bs.length < total ∧ overlay q (base + BitVec.ofNat 20 bs.length) = none) :
    gatherHeld q base total total [] = bs :=
  gatherHeld_take hhit hend total 0 (by simp) (by rcases hend with h | ⟨h, -⟩ <;> omega)

/-! ### Readings (R155, R157) -/

/-- The state at the beginning of a reading, index 0 (R155). -/
def readingBegun (s : State) : State :=
  { s with descriptor := { s.descriptor with reading := true, bytes := [] } }

/-- A byte that the queue does not hold is a LOAD read (R157). -/
theorem advanceReading_missed {s : State} (hl : s.descriptor.bytes.length < 49)
    (h : overlay s.queue (0xFFF20#20 + BitVec.ofNat 20 s.descriptor.bytes.length) = none) :
    advanceReading s =
      portRequest .load (.read (0xFFF20#20 + BitVec.ofNat 20 s.descriptor.bytes.length)) s := by
  unfold advanceReading
  rw [gatherHeld_missed (base := descriptorBase) _ _ h]
  dsimp only
  rw [if_pos (by exact hl)]
  rfl

/-- With all bytes taken no lookup is left (R157). -/
theorem advanceReading_full {s : State} (h : s.descriptor.bytes.length = 49) :
    advanceReading s = s := by
  have hg : gatherHeld s.queue descriptorBase descriptorLength descriptorLength
      s.descriptor.bytes = s.descriptor.bytes := by
    show gatherHeld _ _ _ (48 + 1) _ = _
    rw [gatherHeld, if_neg (by rw [h]; decide)]
  unfold advanceReading
  rw [hg]
  dsimp only
  rw [if_neg (by rw [h]; decide)]

theorem beginReading_missed {s : State} (h : overlay s.queue 0xFFF20#20 = none) :
    beginReading s = portRequest .load (.read 0xFFF20#20) (readingBegun s) :=
  advanceReading_missed (s := readingBegun s) (show 0 < 49 by decide) h

/-! ### The end of a reading (R156, R158, R159) -/

theorem finishReading_incomplete {s : State} (n : Nat) (h : readingComplete s = false) :
    finishReading n s = s := by
  cases n with
  | zero => rfl
  | succ n => rw [finishReading, if_neg (by simp [h])]

/-- The descriptor unit IDLE after a reading is judged. -/
def readingEnded (s : State) : State := { judgeDescriptor s with
  descriptor := { (judgeDescriptor s).descriptor with reading := false, held := none } }

/-- Without a held notice that differs from the applied generation the reading ends (R156). -/
theorem finishReading_ends {s : State} (n : Nat) (hc : readingComplete s = true)
    (h : s.descriptor.held = none ∨
      s.descriptor.held = some (judgeDescriptor s).descriptor.generation) :
    finishReading (n + 1) s = readingEnded s := by
  rw [finishReading, if_pos hc]
  rcases h with h | h
  · rw [h]
    rfl
  · rw [h]
    dsimp only
    rw [if_neg (by simp)]
    rfl

/-- A held notice that differs starts a new reading (R156). -/
theorem finishReading_again {s : State} {b : Byte} (n : Nat) (hc : readingComplete s = true)
    (hb : s.descriptor.held = some b) (hne : b ≠ (judgeDescriptor s).descriptor.generation) :
    finishReading (n + 1) s = finishReading n (beginReading (readingEnded s)) := by
  rw [finishReading, if_pos hc, hb]
  dsimp only
  rw [if_pos hne]
  rfl

theorem readingComplete_iff (s : State) : readingComplete s = true ↔
    s.descriptor.reading = true ∧ s.descriptor.bytes.length = 49 := by
  simp [readingComplete, descriptorLength]

theorem judgeDescriptor_valid {s : State} (h : descriptorValid s.descriptor.bytes = true) :
    judgeDescriptor s = applyConfig (descriptorConfig s.descriptor.bytes)
      (descriptorGeneration s.descriptor.bytes) s := if_pos h

/-- A reading under way with a byte still to read is not complete. -/
theorem readingComplete_short {s : State} (h : s.descriptor.bytes.length < 49) :
    readingComplete s = false := by
  rw [Bool.eq_false_iff, ne_eq, readingComplete_iff]
  omega

/-- A generation byte that differs starts a reload, whose first byte the queue does not hold (R155). -/
theorem generationNotice_starts {b : Byte} {s : State} (hr : s.descriptor.reading = false)
    (hb : b ≠ s.descriptor.generation) (h : overlay s.queue 0xFFF20#20 = none) :
    generationNotice b s = portRequest .load (.read 0xFFF20#20) (readingBegun s) := by
  rw [generationNotice, if_neg (by simp [hr]), if_pos hb, beginReading_missed h]
  exact finishReading_incomplete 2 (readingComplete_short (by simp [readingBegun]))

/-! ### A reload whose first bytes the queue holds (R157, R160) -/

section Gathered

variable {s : State} {bs : List Byte} {b : Byte} (hr : s.descriptor.reading = false)
  (hb : b ≠ s.descriptor.generation)
  (hhit : ∀ i < bs.length,
    overlay s.queue (0xFFF20#20 + BitVec.ofNat 20 i) = some (bs.getD i 0#8))

/-- The state of a reading with these bytes taken. -/
def readingAt (bs : List Byte) (s : State) : State :=
  { s with descriptor := { s.descriptor with reading := true, bytes := bs } }

include hhit

/-- The bytes that hit are taken at once, and the first miss is a LOAD read (R157). -/
theorem beginReading_gathers (hl : bs.length < 49)
    (h : overlay s.queue (0xFFF20#20 + BitVec.ofNat 20 bs.length) = none) :
    beginReading s =
      portRequest .load (.read (0xFFF20#20 + BitVec.ofNat 20 bs.length)) (readingAt bs s) := by
  have hg : gatherHeld s.queue descriptorBase descriptorLength descriptorLength [] = bs :=
    gatherHeld_hits hhit (.inr ⟨hl, h⟩)
  unfold beginReading advanceReading
  dsimp only
  rw [hg, if_pos (by exact hl)]
  rfl

/-- With all 49 bytes held no read is made (R157). -/
theorem beginReading_gathersAll (hl : bs.length = 49) : beginReading s = readingAt bs s := by
  have hg : gatherHeld s.queue descriptorBase descriptorLength descriptorLength [] = bs :=
    gatherHeld_hits hhit (.inl hl)
  unfold beginReading advanceReading
  dsimp only
  rw [hg, if_neg (by rw [hl]; decide)]
  rfl

include hr hb

theorem generationNotice_gathers (hl : bs.length < 49)
    (h : overlay s.queue (0xFFF20#20 + BitVec.ofNat 20 bs.length) = none) :
    generationNotice b s =
      portRequest .load (.read (0xFFF20#20 + BitVec.ofNat 20 bs.length)) (readingAt bs s) := by
  rw [generationNotice, if_neg (by simp [hr]), if_pos hb, beginReading_gathers hhit hl h]
  exact finishReading_incomplete 2 (readingComplete_short (by simpa [readingAt] using hl))

/-- With all 49 bytes held and no held notice the descriptor is judged in the same step (R158, R160). -/
theorem generationNotice_gathersAll (hl : bs.length = 49) (hn : s.descriptor.held = none) :
    generationNotice b s = readingEnded (readingAt bs s) := by
  rw [generationNotice, if_neg (by simp [hr]), if_pos hb, beginReading_gathersAll hhit hl]
  exact finishReading_ends 1 ((readingComplete_iff _).2 ⟨rfl, hl⟩) (.inl hn)

end Gathered

/-! ### Settling O24 -/

/-- A queued generation byte that differs is answered done and sends its notice (R34, R127). -/
theorem acceptQueued_notice {b : Byte} {s : State} {op : BusOp} {st : Stage}
    (hacc : s.host.access = some ⟨op, st, false⟩) :
    acceptQueued 0xFFF22#20 b s = generationNotice b (deferredDone op s) := by
  unfold acceptQueued
  dsimp only
  rw [answerHost_waiting _ (s := countDeferred s) hacc]
  rfl

/-- The descriptor's first byte is at another offset than the generation byte's. -/
theorem overlay_generation_entry (b : Byte) (st : EntryState) :
    overlay [⟨.data 0xFFF2#16 [(2, b)], st⟩] 0xFFF20#20 = none := rfl

/-- The two ways in which an IDLE port takes the DRAIN and the LOAD request of one append (R104). -/
theorem appendTaken_meets {b : Byte} {s : State} (he : s.engine.state = .emptyWait)
    (hp : portQuiet s) (hr : s.descriptor.reading = false) (hb : b ≠ s.descriptor.generation) :
    appendTaken 0xFFF22#20 b s = acceptQueued 0xFFF22#20 b (wakeEngine s.takeFree) ∨
      appendTaken 0xFFF22#20 b s = wakeEngine (acceptQueued 0xFFF22#20 b s.takeFree) := by
  have hmeet : requestsMeet 0xFFF22#20 b s = true := by
    simp [requestsMeet, generationAddr, hr, hb, he, hp.1]
  rcases appendTaken_cases 0xFFF22#20 b s with ⟨h, -⟩ | ⟨-, h⟩
  · rw [hmeet] at h; cases h
  · exact h

section Meeting

variable {s : State} {b : Byte} (hm : s.control.mode = .drain) (he : s.engine.state = .emptyWait)
  (hp : portQuiet s) (hr : s.descriptor.reading = false) (hb : b ≠ s.descriptor.generation)
  {st : Stage} (hacc : s.host.access = some ⟨.write 0xFFF22#20 b, st, false⟩)

/-- The state with the generation byte appended to an empty queue (R8). -/
def generationAppended (b : Byte) (s : State) : State :=
  { s with queue := [⟨.data 0xFFF2#16 [(2, b)], .pending⟩] }

/-- What the generation byte's append in EMPTY_WAIT leaves but for the port and the memory. -/
def generationClaimed (b : Byte) (s : State) (p : MemoryPort) (m : Memory) : State := { s with
  host := { s.host with access := some ⟨.write 0xFFF22#20 b, .answered .done, false⟩ }
  queue := [⟨.data 0xFFF2#16 [(2, b)], .draining⟩]
  engine := { s.engine with
    state := .writing, outstanding := some ⟨false, 0xFFF22#20, b⟩ }
  status := { s.status with deferred := s.status.deferred + 1#16 }
  descriptor := { s.descriptor with reading := true, bytes := [] }
  port := p
  memory := m }

include he hp hr hb hacc

include hm in
/-- The claim taken first: the LOAD read waits (R104). -/
theorem wake_then_accept :
    acceptQueued 0xFFF22#20 b (wakeEngine (generationAppended b s)) =
      generationClaimed b s
        { quietGrant s .drain (.write 0xFFF22#20 b) .drain with
          waiting := ⟨none, some (.read 0xFFF20#20), none, none⟩ }
        (grantMemory s (.write 0xFFF22#20 b)) := by
  have hwake : wakeEngine (generationAppended b s) = claimedAtOnce 0xFFF22#20 b s :=
    wakeEngine_claims 0xFFF22#20 b he hm hp
  rw [hwake, acceptQueued_notice (s := claimedAtOnce 0xFFF22#20 b s) hacc,
    generationNotice_starts (s := deferredDone _ (claimedAtOnce 0xFFF22#20 b s)) hr hb
      (overlay_generation_entry b .draining)]
  exact portRequest_busy .load (.read 0xFFF20#20) rfl

/-- The LOAD read taken first: the claim's write waits (R104). -/
theorem accept_then_wake :
    wakeEngine (acceptQueued 0xFFF22#20 b (generationAppended b s)) =
      generationClaimed b s
        { quietGrant s .load (.read 0xFFF20#20) s.port.marker with
          waiting := ⟨none, none, none, some (.write 0xFFF22#20 b)⟩ }
        s.memory := by
  let u : State := deferredDone (.write 0xFFF22#20 b) (generationAppended b s)
  have hload : acceptQueued 0xFFF22#20 b (generationAppended b s) = { readingBegun u with
      port := quietGrant s .load (.read 0xFFF20#20) s.port.marker } := by
    rw [acceptQueued_notice (s := generationAppended b s) hacc,
      generationNotice_starts (s := u) hr hb (overlay_generation_entry b .pending),
      portRequest_quiet (s := readingBegun u) .load (.read 0xFFF20#20) hp rfl]
    rfl
  rw [hload, wakeEngine, if_pos ⟨he, by exact List.cons_ne_nil _ _⟩, claimHead]
  exact portRequest_busy .drain (.write 0xFFF22#20 b) rfl

end Meeting

/-- Settles O24. -/
theorem heldGenerationWriteStartsReload : Obligations.HeldGenerationWriteStartsReload := by
  intro s b hr hm hread hp hb
  have hc : writesAs (.generationWrite b) 0xFFF22#20 b := .inr (.inr (.inr (.inl ⟨rfl, rfl⟩)))
  have hq : queuesIn s 0xFFF22#20 := .inl ⟨by decide, by decide⟩
  have hexec := exec_write_queues hc hr hm hread hq
  rw [show mergeFlag s 0xFFF22#20 = true from rfl] at hexec
  refine ⟨fun he hroom => ?_, fun he hqe hd => ?_⟩
  · obtain ⟨q, merged, htake, htakes⟩ := takeIntoQueue_takes (b := b)
      (s := writeTaken 0xFFF22#20 b s) (by decide) (.inl he) hroom
    refine ⟨q, merged, htakes, ?_⟩
    intro u bs hhit
    have hacc : acceptQueued 0xFFF22#20 b (tookIn q merged (writeTaken 0xFFF22#20 b s)) =
        generationNotice b u := acceptQueued_notice rfl
    rw [hexec, queueWrite, htake, hacc]
    refine ⟨fun hl hmiss => ?_, fun hl hn hv => ?_, fun hl hn hv => ?_⟩
    · rw [generationNotice_gathers (s := u) hread hb hhit hl hmiss,
        portRequest_quiet (s := readingAt bs u) .load _ hp rfl]
      rfl
    · have hgen : descriptorGeneration bs = b := by
        have h2 := hhit 2 (by omega)
        rw [show (0xFFF20#20 + BitVec.ofNat 20 2 : Addr) = 0xFFF22#20 from rfl,
          htakes.2.2.2.1] at h2
        exact (Option.some.inj h2).symm
      rw [generationNotice_gathersAll (s := u) hread hb hhit hl hn, readingEnded,
        judgeDescriptor_valid (s := readingAt bs u) hv]
      rw [show descriptorGeneration (readingAt bs u).descriptor.bytes = b from hgen]
      rfl
    · rw [generationNotice_gathersAll (s := u) hread hb hhit hl hn, readingEnded,
        judgeDescriptor_invalid (s := readingAt bs u) hv]
      rw [← hn, ← hread]
      rfl
  · have happ : presentToQueue (writeTaken 0xFFF22#20 b s).queue 0xFFF22#20 b true =
        (.appended, [⟨.data 0xFFF2#16 [(2, b)], .pending⟩]) := by
      rw [show (writeTaken 0xFFF22#20 b s).queue = [] from hqe]; rfl
    rw [hexec, queueWrite, takeIntoQueue, happ]
    dsimp only
    rcases appendTaken_meets (s := generationAppended b (writeTaken 0xFFF22#20 b s)) he hp hread hb
      with h | h
    · refine ⟨_, _, s.freeIndex + 1, congrArg Host.Outcome.next (h.trans
        (wake_then_accept (s := (writeTaken 0xFFF22#20 b s).takeFree) hd he hp hread hb rfl)),
        .inl ⟨rfl, fun a ha => memRead_grantMemory s (.write 0xFFF22#20 b) a (.inr ha)⟩⟩
    · exact ⟨_, _, s.freeIndex + 1, congrArg Host.Outcome.next (h.trans
        (accept_then_wake (s := (writeTaken 0xFFF22#20 b s).takeFree) he hp hread hb rfl)),
        .inr ⟨rfl, rfl⟩⟩

end Sys2Proof.Machine

/-! ## The ends of accesses (6.3, 6.4) -/

namespace Sys2Proof.Machine

open Sys2Proof

set_option Elab.async false

/-! ### The commands of the memory bus -/

section Bus

variable {s : State} {r : Requester} {op : BusOp} {due : Nat}

/-- The state with MRDY at a level. -/
def withMrdy (m : Bool) (s : State) : State := { s with pins := { s.pins with mrdy := m } }

theorem exec_mrdyReady_readyWait (h : s.port.access = some ⟨r, op, .readyWait⟩) :
    exec .mrdyReady s = .next (enterStrobe ⟨r, op, .readyWait⟩ false (withMrdy true s)) := by
  show execMrdyReady s = _
  unfold execMrdyReady
  dsimp only
  rw [h]
  rfl

theorem exec_mrdyReady_busyWatch (h : s.port.access = some ⟨r, op, .busyWatch⟩) :
    exec .mrdyReady s = .next (endAccess ⟨r, op, .busyWatch⟩ .done (withMrdy true s)) := by
  show execMrdyReady s = _
  unfold execMrdyReady
  dsimp only
  rw [h]
  rfl

theorem exec_writeStrobeEnd {late : Bool} (m : Bool)
    (h : s.port.access = some ⟨r, op, .writeStrobe late⟩) : exec (.writeStrobeEnd m) s =
      .next (endWriteStrobe ⟨r, op, .writeStrobe late⟩ late m (withMrdy m s)) := by
  show execWriteStrobeEnd m s = _
  rw [execWriteStrobeEnd, h]
  rfl

/-- The state as the write timeout is reached (log 3). -/
def timedOut (due : Nat) (s : State) : State :=
  { s with now := max s.now due, port := { s.port with timeout := none } }

theorem exec_writeTimeout {acc : PortAccess} (ht : s.port.timeout = some due)
    (h : s.port.access = some acc) :
    exec .writeTimeout s = .next (reachTimeout acc (timedOut due s)) := by
  show execWriteTimeout s = _
  rw [execWriteTimeout, ht, h]
  rfl

/-- A write faults at the timeout in its ready wait and in its busy watch (R111). -/
theorem exec_writeTimeout_faults {ph : Phase} (ht : s.port.timeout = some due)
    (h : s.port.access = some ⟨r, op, ph⟩) (hop : op.isRead = false)
    (hp : ph = .readyWait ∨ ph = .busyWatch) :
    exec .writeTimeout s = .next (endAccess ⟨r, op, ph⟩ .fault (timedOut due s)) := by
  rw [exec_writeTimeout ht h]
  cases op with
  | read a => cases hop
  | write a b => rcases hp with rfl | rfl <;> rfl

theorem exec_readStrobeEnd {busy : Bool} (h : s.port.access = some ⟨r, op, .readStrobe busy⟩) :
    exec .readStrobeEnd s = .next (endAccess ⟨r, op, .readStrobe busy⟩
      (.byte (driveByte op.addr busy s).1) (driveByte op.addr busy s).2) := by
  show execReadStrobeEnd s = _
  rw [execReadStrobeEnd, h]

end Bus

/-! ### The state in which a completion is delivered -/

section Delivered

variable {s : State} {r : Requester} {a : Addr} {b : Byte} {ph : Phase}

/-- The state with the timer stopped and this memory. -/
def endedWith (m : Memory) (n : Nat) (s : State) : State :=
  { s with port := { s.port with timeout := none }, memory := m, freeIndex := n }

theorem completed_done : completed ⟨r, .write a b, ph⟩ .done s =
    endedWith (memWrite s.memory a b) s.freeIndex s := rfl

theorem completed_byte (v : Byte) : completed ⟨r, .read a, ph⟩ (.byte v) s =
    endedWith s.memory s.freeIndex s := rfl

theorem completed_fault : ∃ m n, completed ⟨r, .write a b, ph⟩ .fault s = endedWith m n s ∧
    faultLeaves s a ph m n := by
  refine ⟨_, _, ?_, leaveMemory_fault (acc := ⟨r, .write a b, ph⟩)
    { s with port := { s.port with timeout := none } } rfl⟩
  unfold completed leaveMemory
  dsimp only
  split <;> rfl

/-- A done write's memory (R114). -/
theorem memWrite_frame (m : Memory) (a : Addr) (b : Byte) :
    memRead (memWrite m a b) a = some b ∧
      ∀ a', a' ≠ a → memRead (memWrite m a b) a' = memRead m a' :=
  ⟨memRead_memWrite_same m a b, fun _ h => memRead_memWrite_other m b h⟩

end Delivered

/-! ### What follows the delivery (R106) -/

/-- The state with the port IDLE and nothing waiting. -/
def portAtRest (s : State) : State :=
  { s with port := ⟨none, ⟨none, none, none, none⟩, s.port.marker, none⟩ }

theorem idlePort_atRest {s : State} (hw : s.port.waiting = ⟨none, none, none, none⟩)
    (ht : s.port.timeout = none) : idlePort s = portAtRest s := by
  simp only [idlePort, portAtRest, hw, ht]

/-- With nothing waiting after the delivery and the mode as it was, the port is IDLE and nothing follows. -/
theorem endAccess_quiet {s u : State} {acc : PortAccess} {c : Completion}
    (hd : deliver acc c (completed acc c s) = u) (hw : u.port.waiting = ⟨none, none, none, none⟩)
    (ht : u.port.timeout = none) (hm : u.control.mode = s.control.mode) :
    endAccess acc c s = portAtRest u := by
  rw [endAccess_eq, hd, decideAtEnd_quiet (s := idlePort u) acc.requester hw,
    afterEvent_same (s := idlePort u) hm, idlePort_atRest hw ht]

/-- The only request that waits is granted, if the gate lets it through (R106). -/
theorem decideAtEnd_one {s : State} {r : Requester} {op : BusOp} (own : Requester)
    (before : Waiting) (hp : s.port.access = none)
    (hw : s.port.waiting = (⟨none, none, none, none⟩ : Waiting).put r (some op))
    (hg : gateOpen s.control.mode r op = true) : decideAtEnd own before s = grant r op s := by
  have hc : eligibleCount s.control.mode s.port.waiting ≤ 1 := by
    rw [hw]
    cases r <;>
      simp [eligibleCount, Requester.all, eligible, Waiting.get, Waiting.put, Option.filter, hg]
  unfold decideAtEnd
  rw [if_pos (.inr hc)]
  refine decideGrant_choice hp ?_
  rw [hw]
  cases r <;> simp [grantChoice, eligible, Waiting.get, Waiting.put, Option.filter, hg]

/-- The mode gate lets STATUS through in every mode but HOLD (R112). -/
theorem gateOpen_status {m : Mode} (op : BusOp) (h : m ≠ .hold) : gateOpen m .status op = true := by
  cases m with
  | hold => exact absurd rfl h
  | _ => cases op <;> rfl

/-- With only one request waiting after the delivery, and the mode as it was, it is granted (R106). -/
theorem endAccess_grants {s u : State} {acc : PortAccess} {c : Completion} {r : Requester}
    {op : BusOp} (hd : deliver acc c (completed acc c s) = u)
    (hw : u.port.waiting = (⟨none, none, none, none⟩ : Waiting).put r (some op))
    (hm : u.control.mode = s.control.mode) (hg : gateOpen u.control.mode r op = true) :
    endAccess acc c s = grant r op (idlePort u) := by
  rw [endAccess_eq, hd, decideAtEnd_one (s := idlePort u) (r := r) (op := op) _ _ rfl hw hg]
  refine afterEvent_same ?_
  rw [grant_eq]
  exact hm

/-! ### HOST completions (R122, R125, R127, R128) -/

/-- The effects of a done pass-through write, whatever the host port holds (R127). -/
def takesEffect (a : Addr) (b : Byte) (s v : State) : Prop :=
  ∀ h : HostPort, writeTakesEffect a b { s with host := h } = { v with host := h }

/-- The access in progress is the write's own, or RST# cancelled it after its grant (R128). -/
def hostOrOrphan (op : BusOp) (s : State) : Prop :=
  (s.host.orphan = false ∧ s.host.access = some ⟨op, .onPort, false⟩) ∨
    (s.host.orphan = true ∧ s.host.access = none)

/-- The host port after the done end of its write. -/
def hostDone (op : BusOp) (h : HostPort) : HostPort := { h with
  access := if h.orphan then none else some ⟨op, .answered .done, false⟩
  orphan := false }

/-- With the host still there its access is answered done (R125). -/
theorem hostDone_own {h : HostPort} (op : BusOp) (ho : h.orphan = false) :
    hostDone op h = hostAt h op (.answered .done) := by
  simp [hostDone, hostAt, ho]

theorem hostCompletion_done {s v : State} {a : Addr} {b : Byte} (hv : takesEffect a b s v)
    (h : hostOrOrphan (.write a b) s) : hostCompletion (.write a b) .done s =
      { v with host := hostDone (.write a b) s.host } := by
  rcases h with ⟨ho, hacc⟩ | ⟨ho, hacc⟩
  · rw [hostCompletion, if_neg (by simp [ho])]
    rw [answerHost_waiting _ hacc, hv, hostDone_own _ ho]
    exact settleHost_busy rfl
  · have hself : writeTakesEffect a b s = { v with host := s.host } := hv s.host
    rw [hostCompletion, if_pos ho, orphanCompletion]
    rw [hself, hostDone, ho]
    simp only [hacc]
    rfl

/-- A write to neither the fence nor the generation byte has no effect but its own (R127). -/
theorem takesEffect_plain {a : Addr} (b : Byte) (s : State) (hf : a ≠ 0xFFF11#20)
    (hg : a ≠ 0xFFF22#20) : takesEffect a b s s := fun h => by
  unfold writeTakesEffect
  rw [if_neg (by exact hf), if_neg (by exact hg)]

theorem takesEffect_fence (b : Byte) (s : State) :
    takesEffect 0xFFF11#20 b s (completeFence b s) := fun _ => rfl

theorem takesEffect_sameGeneration {b : Byte} {s : State} (hb : b = s.descriptor.generation)
    (hr : s.descriptor.reading = false) : takesEffect 0xFFF22#20 b s s := fun h =>
  generationNotice_same (s := { s with host := h }) hb hr

theorem takesEffect_reading (b : Byte) {s : State} (hr : s.descriptor.reading = true) :
    takesEffect 0xFFF22#20 b s
      { s with descriptor := { s.descriptor with held := some b } } := fun h => by
  show generationNotice b { s with host := h } = _
  rw [generationNotice, if_pos hr]

theorem takesEffect_reload {b : Byte} {s : State} {acc : PortAccess}
    (hp : s.port.access = some acc) (hr : s.descriptor.reading = false)
    (hb : b ≠ s.descriptor.generation) (hmiss : overlay s.queue 0xFFF20#20 = none) :
    takesEffect 0xFFF22#20 b s { readingBegun s with
      port := { s.port with waiting := s.port.waiting.put .load (some (.read 0xFFF20#20)) } } := by
  intro h
  show generationNotice b { s with host := h } = _
  rw [generationNotice_starts (s := { s with host := h }) hr hb hmiss,
    portRequest_busy (s := readingBegun { s with host := h }) .load _ hp]
  rfl

/-- The done end of a pass-through write whose effect requests nothing (R125). -/
theorem endAccess_hostDone {s v : State} {a : Addr} {b : Byte} {ph : Phase}
    (hw : s.port.waiting = ⟨none, none, none, none⟩) (h : hostOrOrphan (.write a b) s)
    (hv : takesEffect a b (endedWith (memWrite s.memory a b) s.freeIndex s) v)
    (hp : v.port = { s.port with timeout := none }) (hm : v.control.mode = s.control.mode) :
    endAccess ⟨.host, .write a b, ph⟩ .done s =
      portAtRest { v with host := hostDone (.write a b) s.host } := by
  have hwv : v.port.waiting = ⟨none, none, none, none⟩ := by rw [hp]; exact hw
  have htv : v.port.timeout = none := by rw [hp]
  refine endAccess_quiet ?_ hwv htv hm
  rw [completed_done]
  exact hostCompletion_done hv h

/-- The fault of a pass-through write is answered ERR, with its notices (R125, R111). -/
theorem endAccess_hostFault {s : State} {a : Addr} {b : Byte} {ph : Phase}
    (hw : s.port.waiting = ⟨none, none, none, none⟩) (ho : s.host.orphan = false)
    (hacc : s.host.access = some ⟨.write a b, .onPort, false⟩) :
    ∃ m n, endAccess ⟨.host, .write a b, ph⟩ .fault s = portAtRest (endedWith m n { s with
        host := hostAt s.host (.write a b) (.answered .err)
        status := rejectedStatus { s.status with causes := s.status.causes ||| 0x20#8 } }) ∧
      faultLeaves s a ph m n := by
  obtain ⟨m, n, hc, hl⟩ := completed_fault (s := s) (r := .host) (a := a) (b := b) (ph := ph)
  refine ⟨m, n, endAccess_quiet ?_ hw rfl rfl, hl⟩
  rw [hc]
  show hostCompletion (.write a b) .fault (endedWith m n s) = _
  rw [hostCompletion, if_neg (by simp [endedWith, ho])]
  dsimp only
  rw [rejectWrite_waiting (s := setCause .memFault (endedWith m n s)) hacc]
  exact settleHost_busy rfl

/-! ### The obligations of the HOST accesses -/

/-- Settles O46. -/
theorem strobesBeginAndEndByMrdy : Obligations.StrobesBeginAndEndByMrdy := by
  intro s r a b
  refine ⟨fun h => ?_, fun h => ?_, fun h => ?_, fun h hw hf hg hh => ?_,
    fun late h hw ho hacc => ⟨fun hlate hf hg => ?_, fun hlate mrdy => ?_⟩⟩
  · rw [exec_mrdyReady_readyWait h]
    rfl
  · exact ⟨memForget s.memory a, exec_mrdyReady_readyWait h, memRead_memForget_same _ _,
      fun a' ha' => memRead_memForget_other _ ha'⟩
  · rw [exec_writeStrobeEnd false h]
    rfl
  · refine ⟨memWrite s.memory a b, ?_, memWrite_frame _ _ _⟩
    rw [exec_mrdyReady_busyWatch h, endAccess_hostDone (s := withMrdy true s) hw hh
      (takesEffect_plain b _ hf hg) rfl rfl]
    rfl
  · subst hlate
    refine ⟨memWrite s.memory a b, ?_, memWrite_frame _ _ _⟩
    rw [exec_writeStrobeEnd true h]
    refine congrArg Host.Outcome.next ((endAccess_hostDone (s := withMrdy true s) hw
      (.inl ⟨ho, hacc⟩) (takesEffect_plain b _ hf hg) rfl rfl).trans ?_)
    rw [hostDone_own (h := (withMrdy true s).host) _ ho]
    rfl
  · subst hlate
    obtain ⟨m, n, he, hl⟩ := endAccess_hostFault (s := withMrdy mrdy s) (ph := .writeStrobe true)
      hw ho hacc
    refine ⟨m, n, ?_, hl⟩
    rw [exec_writeStrobeEnd mrdy h]
    exact congrArg Host.Outcome.next he

/-- Settles O47. -/
theorem passedWindowByteTakesEffect : Obligations.PassedWindowByteTakesEffect := by
  intro s a b h hw hh done frame
  have hexec {v : State}
      (hv : takesEffect a b (endedWith (memWrite s.memory a b) s.freeIndex (withMrdy true s)) v)
      (hp : v.port = { s.port with timeout := none }) (hm : v.control.mode = s.control.mode) :
      exec .mrdyReady s = .next (portAtRest { v with host := hostDone (.write a b) s.host }) := by
    rw [exec_mrdyReady_busyWatch h, endAccess_hostDone (s := withMrdy true s) hw hh hv hp hm]
    rfl
  have hframe : frame (memWrite s.memory a b) := memWrite_frame _ _ _
  refine ⟨fun ha => ⟨_, ?_, hframe⟩, fun ha hr hb => ⟨_, ?_, hframe⟩,
    fun ha hr hb hmiss => ⟨_, ?_, hframe⟩, fun ha hr => ⟨_, ?_, hframe⟩⟩
  all_goals subst ha
  · rw [hexec (takesEffect_fence b _) rfl rfl]
    rfl
  · rw [hexec (takesEffect_sameGeneration hb hr) rfl rfl]
    rfl
  · let x : State := endedWith (memWrite s.memory 0xFFF22#20 b) s.freeIndex (withMrdy true s)
    let u : State := { readingBegun x with
      host := hostDone (.write 0xFFF22#20 b) s.host
      port := { x.port with waiting := ⟨none, some (.read 0xFFF20#20), none, none⟩ } }
    have hput : x.port.waiting.put .load (some (.read 0xFFF20#20)) =
        ⟨none, some (.read 0xFFF20#20), none, none⟩ := by
      rw [show x.port.waiting = _ from hw]; rfl
    have hdel : deliver ⟨.host, .write 0xFFF22#20 b, .busyWatch⟩ .done
        (completed ⟨.host, .write 0xFFF22#20 b, .busyWatch⟩ .done (withMrdy true s)) = u := by
      rw [completed_done]
      refine (hostCompletion_done (s := x) (takesEffect_reload (s := x) h hr hb hmiss) hh).trans ?_
      rw [hput]
      rfl
    rw [exec_mrdyReady_busyWatch h, endAccess_eq, hdel,
      decideAtEnd_one (s := idlePort u) (r := .load) (op := .read 0xFFF20#20) _ _ rfl rfl rfl,
      grant_eq]
    exact congrArg Host.Outcome.next (afterEvent_same rfl)
  · rw [hexec (takesEffect_reading b hr) rfl rfl]
    rfl

/-- Settles O48. -/
theorem writeTimeoutFaults : Obligations.WriteTimeoutFaults := by
  intro s a b due ht
  refine ⟨fun ph hph h hw ho hacc => ?_, fun r h => ?_, fun r late h => ?_⟩
  · obtain ⟨m, n, he, hl⟩ := endAccess_hostFault (s := timedOut due s) (ph := ph) hw ho hacc
    refine ⟨m, n, ?_, hl⟩
    rw [exec_writeTimeout_faults ht h rfl hph]
    exact congrArg Host.Outcome.next he
  · rw [exec_writeTimeout ht h]
    rfl
  · rw [exec_writeTimeout ht h]
    rfl

/-- The byte on the data pins: the memory's, or a free value, which is counted (R109). -/
theorem driveByte_cases (a : Addr) (busy : Bool) (s : State) :
    ∃ b n, driveByte a busy s = (b, { s with freeIndex := n }) ∧
      (busy = false → ∀ v, memRead s.memory a = some v → b = v ∧ n = s.freeIndex) := by
  unfold driveByte
  split
  · next v hv =>
    exact ⟨v, s.freeIndex, rfl, fun _ w hw => ⟨Option.some.inj (hv.symm.trans hw), rfl⟩⟩
  · next hn => exact ⟨_, _, rfl, fun hb v hv => absurd hv (hn v hb)⟩

/-- Settles O49. -/
theorem readStrobeAnswersHost : Obligations.ReadStrobeAnswersHost := by
  intro s a busy h hw ho hacc
  obtain ⟨b, n, hd, hb⟩ := driveByte_cases a busy s
  refine ⟨b, n, ?_, hb⟩
  rw [exec_readStrobeEnd h]
  change Host.Outcome.next (endAccess _ (.byte (driveByte a busy s).1) (driveByte a busy s).2) = _
  rw [hd]
  have hdel : deliver ⟨.host, .read a, .readStrobe busy⟩ (.byte b)
      (completed ⟨.host, .read a, .readStrobe busy⟩ (.byte b) { s with freeIndex := n }) =
      { endedWith s.memory n s with host := hostAt s.host (.read a) (.answered (.data b)) } := by
    rw [completed_byte]
    show hostCompletion (.read a) (.byte b) (endedWith s.memory n s) = _
    rw [hostCompletion, if_neg (by simp [endedWith, ho])]
    dsimp only
    rw [answerHost_waiting (s := endedWith s.memory n s) _ hacc]
    exact settleHost_busy rfl
  exact congrArg Host.Outcome.next (endAccess_quiet hdel hw rfl rfl)

end Sys2Proof.Machine

/-! ## Drain completions (5.3, 5.6, 5.7) -/

namespace Sys2Proof.Machine

open Sys2Proof

set_option Elab.async false

/-! ### What a removal leaves of the queue (R16, R17, R94) -/

/-- The state with the queue after a removal or a drop, and the report that no entry is left (R94). -/
def queueLeft (q : List Entry) (s : State) : State := { s with
  queue := q
  queueEmptyReports := if q = [] then s.queueEmptyReports + 1 else s.queueEmptyReports }

theorem reportIfEmpty_eq (q : List Entry) (s : State) : reportIfEmpty q.isEmpty s = { s with
    queueEmptyReports := if q = [] then s.queueEmptyReports + 1 else s.queueEmptyReports } := by
  cases q <;> rfl

/-- With no access in progress no write is stalled for the slot (R41). -/
theorem slotFreed_none {s : State} (h : s.host.access = none) : slotFreed s = s := by
  simp [slotFreed, h]

/-- The queue without the head's lowest offset (R16). -/
def byteDrained (line : Line) (st : EntryState) (more : List Host.Cell) (rest : List Entry) :
    List Entry := if more = [] then rest else ⟨.data line more, st⟩ :: rest

theorem queueLeft_byteDrained (line : Line) (st : EntryState) (more : List Host.Cell)
    (rest : List Entry) (s : State) : queueLeft (byteDrained line st more rest) s = { s with
      queue := if more = [] then rest else ⟨.data line more, st⟩ :: rest
      queueEmptyReports :=
        if more = [] ∧ rest = [] then s.queueEmptyReports + 1 else s.queueEmptyReports } := by
  have hnil : byteDrained line st more rest = [] ↔ more = [] ∧ rest = [] := by
    cases more <;> simp [byteDrained]
  simp only [queueLeft, hnil]
  rfl

theorem cellDrop_absent {cs : List Host.Cell} {k : Nat} (h : ∀ c ∈ cs, c.1 ≠ k) :
    cellDrop cs k = cs := by
  induction cs with
  | nil => rfl
  | cons d ds ih =>
    rw [cellDrop, if_neg (h d List.mem_cons_self), ih fun c hc => h c (List.mem_cons_of_mem _ hc)]

/-- The lowest offset of a rising list leaves it alone (R16). -/
theorem cellDrop_head {o : Nat} {b : Byte} {more : List Host.Cell}
    (h : (((o, b) :: more).map Prod.fst).Pairwise (· < ·)) : cellDrop ((o, b) :: more) o = more := by
  rw [List.map_cons, List.pairwise_cons] at h
  rw [cellDrop, if_pos rfl]
  exact cellDrop_absent fun c hc => (h.1 _ (List.mem_map_of_mem hc)).ne'

theorem writtenReport_head {line : Line} {st : EntryState} {o : Nat} {b : Byte}
    {more : List Host.Cell} (rest : List Entry)
    (h : (((o, b) :: more).map Prod.fst).Pairwise (· < ·)) :
    writtenReport (⟨.data line ((o, b) :: more), st⟩ :: rest) o =
      (decide (more = []), byteDrained line st more rest) := by
  unfold writtenReport byteDrained
  dsimp only
  rw [cellDrop_head h]
  cases more <;> rfl

/-- A byte's written report with no write stalled (R87, R94). -/
theorem reportWritten_byte {s : State} {a : Addr} {b : Byte} {line : Line} {st : EntryState}
    {more : List Host.Cell} {rest : List Entry} (awaits : Bool) (hh : s.host.access = none)
    (hq : s.queue = ⟨.data line ((offsetOf a, b) :: more), st⟩ :: rest)
    (hr : (((offsetOf a, b) :: more).map Prod.fst).Pairwise (· < ·)) :
    reportWritten ⟨false, a, b⟩ awaits s = queueLeft (byteDrained line st more rest) s := by
  have hslot : slotFreed { s with queue := byteDrained line st more rest } =
      { s with queue := byteDrained line st more rest } := slotFreed_none hh
  have hflag : (decide (more = []) && (byteDrained line st more rest).isEmpty) =
      (byteDrained line st more rest).isEmpty := by
    cases more <;> rfl
  rw [reportWritten, hq, writtenReport_head rest hr]
  dsimp only
  rw [hslot, hflag, ite_self, if_neg (by decide)]
  exact reportIfEmpty_eq _ _

/-- A tag's written report with no write stalled (R88, R94). -/
theorem reportWritten_tag {s : State} {a : Addr} {tag : Byte} {st : EntryState}
    {rest : List Entry} (awaits : Bool) (hh : s.host.access = none)
    (hq : s.queue = ⟨.fence tag, st⟩ :: rest) : reportWritten ⟨true, a, tag⟩ awaits s =
      reportIfEmpty rest.isEmpty (requestStatusWrite (completeFence tag
        { s with
          queue := rest
          engine := { s.engine with
            awaited := if awaits then .requested else s.engine.awaited } })) := by
  have hslot : slotFreed { s with queue := rest } = { s with queue := rest } := slotFreed_none hh
  rw [reportWritten, hq]
  dsimp only [writtenReport]
  rw [hslot]
  cases awaits <;> rfl

/-- At a ramp level above 0 a gap runs after a done completion (R87, R90). -/
theorem startGap_runs {s : State} (h : s.engine.rampLevel ≠ 0) : startGap s = { s with
    engine := { s.engine with
      state := .wait, outstanding := none, gapTimer := some (s.now + 8 * s.engine.rampLevel) } } := by
  rw [startGap, if_neg h]
  exact endWait_goesOn (.inr (.inl (Option.some_ne_none _)))

theorem drainCompletion_writing {s : State} {w : DrainWrite} (c : Completion)
    (hs : s.engine.state = .writing) (ho : s.engine.outstanding = some w) :
    drainCompletion c s = if c = .fault then drainFault s else drainDone w s := by
  rw [drainCompletion, hs, ho]

theorem drainCompletion_stopping {s : State} {w : DrainWrite} (c : Completion)
    (hs : s.engine.state = .stopping) (ho : s.engine.outstanding = some w) :
    drainCompletion c s = stoppingCompletion w c s := by
  rw [drainCompletion, hs, ho]

/-! ### The obligations of the running engine -/

/-- Settles O41. -/
theorem drainedByteLeavesHead : Obligations.DrainedByteLeavesHead := by
  intro s a b line st more rest h hw hs ho hramp hq hr hh
  refine ⟨memWrite s.memory a b, ?_, memWrite_frame _ _ _⟩
  let x : State := endedWith (memWrite s.memory a b) s.freeIndex (withMrdy true s)
  let y : State := queueLeft (byteDrained line st more rest)
    { x with engine := { x.engine with attempts := 0 } }
  have hdel : deliver ⟨.drain, .write a b, .busyWatch⟩ .done
      (completed ⟨.drain, .write a b, .busyWatch⟩ .done (withMrdy true s)) = { y with
        engine := { y.engine with
          state := .wait, outstanding := none, gapTimer := some (y.now + 8 * y.engine.rampLevel) } } := by
    rw [completed_done]
    show drainCompletion .done x = _
    rw [drainCompletion_writing (s := x) _ hs ho, if_neg (by decide), drainDone,
      reportWritten_byte (s := { x with engine := { x.engine with attempts := 0 } }) true hh hq hr]
    exact startGap_runs (s := y) hramp
  rw [exec_mrdyReady_busyWatch h, endAccess_quiet hdel hw rfl rfl]
  simp only [y, queueLeft_byteDrained]
  rfl

/-- With only a status byte waiting after the delivery and the mode as it was, the byte is granted (R106). -/
theorem endAccess_status {s u : State} {acc : PortAccess} {c : Completion} {op : BusOp}
    (hd : deliver acc c (completed acc c s) = u) (hw : u.port.waiting = ⟨some op, none, none, none⟩)
    (hm : u.control.mode = s.control.mode) (hne : s.control.mode ≠ .hold) :
    endAccess acc c s = grant .status op (idlePort u) :=
  endAccess_grants (r := .status) (op := op) hd hw hm (gateOpen_status op (hm ▸ hne))

/-- The state with a status write begun while an access is in progress (R143). -/
def statusBegun (s : State) : State := { reportBegun s with
  writer := { s.writer with state := .writing 0#4, image := s.shadow, record := .started }
  port := { s.port with waiting := { s.port.waiting with
    status := some (.write 0xFFF00#20 (s.shadow.byte 0#4)) } } }

theorem requestStatusWrite_busy {s : State} {acc : PortAccess} (hm : s.control.mode ≠ .hold)
    (hw : s.writer.state = .idle) (hp : s.port.access = some acc) :
    requestStatusWrite s = statusBegun s := by
  rw [requestStatusWrite_idle hm hw, beginStatusWrite_busy hp]
  rfl

/-- Settles O42. -/
theorem drainedFenceCompletes : Obligations.DrainedFenceCompletes := by
  intro s tag st rest h hw hs ho hramp hmode hidle hh hq
  let x : State := endedWith (memWrite s.memory 0xFFF11#20 tag) s.freeIndex (withMrdy true s)
  let y : State := completeFence tag { x with
    queue := rest, engine := { x.engine with attempts := 0, awaited := .requested } }
  let z : State := { statusBegun y with queueEmptyReports :=
    if rest = [] then s.queueEmptyReports + 1 else s.queueEmptyReports }
  let u : State := { z with engine := { z.engine with
    state := .wait, outstanding := none, gapTimer := some (s.now + 8 * s.engine.rampLevel) } }
  have hne : s.control.mode ≠ .hold := by rw [hmode]; decide
  have hdel : deliver ⟨.drain, .write 0xFFF11#20 tag, .busyWatch⟩ .done
      (completed ⟨.drain, .write 0xFFF11#20 tag, .busyWatch⟩ .done (withMrdy true s)) = u := by
    rw [completed_done]
    show drainCompletion .done x = _
    rw [drainCompletion_writing (s := x) _ hs ho, if_neg (by decide), drainDone,
      reportWritten_tag (s := { x with engine := { x.engine with attempts := 0 } }) true hh hq]
    change startGap (reportIfEmpty rest.isEmpty (requestStatusWrite y)) = _
    rw [requestStatusWrite_busy (s := y) hne hidle h, reportIfEmpty_eq]
    exact startGap_runs (s := z) hramp
  have hwait : u.port.waiting = ⟨some (.write 0xFFF00#20 (y.shadow.byte 0#4)), none, none, none⟩ := by
    show { s.port.waiting with status := some (BusOp.write 0xFFF00#20 (y.shadow.byte 0#4)) } = _
    rw [hw]
  have hframe (a : Addr) (ha : a ≠ 0xFFF00#20) :
      memRead (grantMemory (idlePort u) (.write 0xFFF00#20 (y.shadow.byte 0#4))) a =
        memRead (memWrite s.memory 0xFFF11#20 tag) a := statusGrant_frame (idlePort u) _ a (.inl ha)
  rw [exec_mrdyReady_busyWatch h, endAccess_status hdel hwait rfl hne, grant_eq]
  refine ⟨_, rfl, rfl, rfl, rfl, rfl, rfl, rfl, rfl, rfl, rfl, rfl, rfl, rfl, ?_, fun a ha ha' => ?_⟩
  · exact (hframe _ (by decide)).trans (memRead_memWrite_same _ _ _)
  · exact (hframe a ha').trans (memRead_memWrite_other _ _ ha)

/-- Settles O43. -/
theorem drainFaultPausesThenDrops : Obligations.DrainFaultPausesThenDrops := by
  intro s a b ph w e rest due h hph hw htime hs ho hh hq
  obtain ⟨m, n, hc, hl⟩ := completed_fault (s := timedOut due s) (r := .drain) (a := a) (b := b)
    (ph := ph)
  let x : State := endedWith m n (timedOut due s)
  have hfault : deliver ⟨.drain, .write a b, ph⟩ .fault
      (completed ⟨.drain, .write a b, ph⟩ .fault (timedOut due s)) = drainFault x := by
    rw [hc]
    show drainCompletion .fault x = _
    rw [drainCompletion_writing (s := x) _ hs ho, if_pos rfl]
  rw [exec_writeTimeout_faults htime h rfl hph]
  refine ⟨fun hat => ⟨m, n, ?_, hl⟩, fun hat hmode hidle => ?_⟩
  · have hpause : drainFault x = { setCause .memFault x with engine := { x.engine with
        attempts := x.engine.attempts + 1, state := .pause, outstanding := none
        retryTimer := some (x.now + 1000) } } := by
      have hlt : x.engine.attempts + 1 < 3 := by
        show s.engine.attempts + 1 < 3
        omega
      rw [drainFault]
      dsimp only
      rw [if_pos hlt]
      rfl
    exact congrArg Host.Outcome.next (endAccess_quiet (hfault.trans hpause) hw rfl rfl)
  · let y : State := countDropped { setCause .memFault x with
      queue := rest
      engine := { x.engine with
        openLoss := true, attempts := 0, state := .wait, outstanding := none, gapTimer := none
        awaited := .requested }
      queueEmptyReports := if rest = [] then s.queueEmptyReports + 1 else s.queueEmptyReports }
    have hne : s.control.mode ≠ .hold := by rw [hmode]; decide
    have hdrop : drainFault x = statusBegun y := by
      have hlt : ¬ x.engine.attempts + 1 < 3 := by
        show ¬ s.engine.attempts + 1 < 3
        omega
      have hslot : slotFreed { setCause .memFault x with queue := rest } =
          { setCause .memFault x with queue := rest } := slotFreed_none hh
      rw [drainFault]
      dsimp only
      rw [if_neg hlt, dropEntry]
      dsimp only
      rw [show dropHead (setCause .memFault x).queue = rest by
        show s.queue.tail = rest
        rw [hq]; rfl, hslot, reportIfEmpty_eq]
      exact requestStatusWrite_busy (s := y) hne hidle h
    have hwait : (statusBegun y).port.waiting =
        ⟨some (.write 0xFFF00#20 (y.shadow.byte 0#4)), none, none, none⟩ := by
      show { s.port.waiting with status := some (BusOp.write 0xFFF00#20 (y.shadow.byte 0#4)) } = _
      rw [hw]
    rw [endAccess_status (hfault.trans hdrop) hwait rfl hne, grant_eq]
    refine ⟨_, rfl, rfl, saturate_eq _, rfl, rfl, rfl, rfl, rfl, rfl, rfl, rfl, rfl, rfl, rfl,
      fun a' hn ha' => ?_⟩
    refine (statusGrant_frame (idlePort (statusBegun y)) (y.shadow.byte 0#4) a' (.inl ha')).trans ?_
    show memRead m a' = _
    rcases hn with hr | hn
    · rw [(hl.1 hr).1]
      rfl
    · exact hl.2.1 a' hn

/-! ### The stop and what STOPPING completes (R100, R101, R20) -/

/-- A grant decision leaves no request waiting that did not wait (R106). -/
theorem decideGrant_waiting_none {s : State} {r : Requester} (h : s.port.waiting.get r = none) :
    (decideGrant s).port.waiting.get r = none := by
  rcases decideGrant_cases s with he | ⟨r', op, -, -, -, he⟩ <;> rw [he]
  · exact h
  · rw [grant_eq]
    show (s.port.waiting.put r' none).get r = none
    cases r <;> cases r' <;> simp_all [Waiting.get, Waiting.put]

theorem afterEvent_waiting_none {s : State} {r : Requester} (m : Mode)
    (h : s.port.waiting.get r = none) : (afterEvent m s).port.waiting.get r = none := by
  unfold afterEvent
  split
  · exact h
  · exact decideGrant_waiting_none (by simpa using h)

/-- A granted write runs on in STOPPING (R100). -/
theorem stopEngine_granted {s : State} (hs : s.engine.state = .writing)
    (hw : s.port.waiting.drain = none) :
    stopEngine s = { s with engine := { s.engine with state := .stopping, rampTimer := none } } := by
  have hg : ¬ (s.port.waiting.get .drain).isSome = true := by
    rw [show s.port.waiting.get .drain = none from hw]; decide
  rw [stopEngine, hs]
  dsimp only
  rw [if_neg hg]

/-- An ungranted request is withdrawn (R100). -/
theorem stopEngine_ungranted {s : State} (hs : s.engine.state = .writing)
    (hw : s.port.waiting.drain ≠ none) :
    stopEngine s = releaseAndStop (portWithdraw .drain s) := by
  have hg : (s.port.waiting.get .drain).isSome = true := Option.isSome_iff_ne_none.2 hw
  rw [stopEngine, hs]
  dsimp only
  rw [if_pos hg]

/-- A queue with no DRAINING head is released to no effect (R20). -/
theorem releaseHead_pending {q : List Entry} (h : ∀ e ∈ q, e.state = .pending) :
    releaseHead q = q := by
  cases q with
  | nil => rfl
  | cons e rest => rw [releaseHead, ← h e List.mem_cons_self]

theorem releaseAndStop_released {s : State} {q : List Entry} (h : releaseHead s.queue = q) :
    releaseAndStop s = { s with queue := q, engine := s.engine.stop } := by
  rw [releaseAndStop, h]

/-- In HOLD, and with a write in flight, a request begins nothing (R143). -/
theorem requestStatusWrite_deferred {s : State}
    (h : s.control.mode = .hold ∨ ∃ n, s.writer.state = .writing n) :
    requestStatusWrite s = { s with writer := { s.writer with
      pending := if s.control.mode = .hold then s.writer.pending else true } } := by
  by_cases hm : s.control.mode = .hold
  · rcases requestStatusWrite_cases s with ⟨-, he⟩ | ⟨hn, -⟩ | ⟨hn, -⟩
    · rw [he, if_pos hm]
    · exact absurd hm hn
    · exact absurd hm hn
  · obtain ⟨n, hw⟩ := h.resolve_left hm
    rw [requestStatusWrite_inFlight hm hw, if_neg hm]

/-- What an entry to HOLD has the engine stop from. -/
def heldFor (s : State) : State :=
  determineUnmarked (abandonStatusWrite (awaitNone (setSafety .held (setMode .hold s))))

theorem heldFor_frame (s : State) : (heldFor s).engine = s.engine ∧ (heldFor s).queue = s.queue ∧
    (heldFor s).port.waiting.drain = s.port.waiting.drain := by
  refine ⟨by simp [heldFor], by simp [heldFor], ?_⟩
  unfold heldFor determineUnmarked abandonStatusWrite
  split
  · rfl
  · split <;> rfl

/-- HREQ_RISING in DRAIN with no access in progress: the hold's entry, and the engine's stop (R64, R100). -/
theorem exec_hreqRising_drain {s : State} (hpor : s.porAsserted = false)
    (hm : s.control.mode = .drain) (hh : s.host.access = none) :
    ∃ x, exec .hreqRising s = .next (afterEvent .drain (stopEngine x)) ∧
      x.engine = s.engine ∧ x.queue = s.queue ∧ x.port.waiting.drain = s.port.waiting.drain := by
  let y : State := beginEpisode .forced
    { s with pins := { s.pins with hreq := true }, control := { s.control with hreq := true } }
  have hentry : holdEntered y = stopEngine (heldFor y) := if_pos hm
  have htake : takeHreqRising { s with pins := { s.pins with hreq := true } } =
      stopEngine (heldFor y) := by
    rw [takeHreqRising_reenters (s := { s with pins := { s.pins with hreq := true } }) (.inl hm)]
    show enterHold y = _
    rw [enterHold_eq, hostModeChanged_none, hentry]
    rw [hentry]
    have hy : y.host.access = none := hh
    simpa [heldFor] using hy
  refine ⟨heldFor y, ?_, heldFor_frame y⟩
  rw [exec_hreqRising hpor, htake, hm]

/-- Settles O44. -/
theorem stoppedDrainFinishesItsWrite : Obligations.StoppedDrainFinishesItsWrite := by
  intro s hh stopped
  refine ⟨fun hpor hm => ?_, ?_⟩
  · obtain ⟨x, hexec, he, hq, hwd⟩ := exec_hreqRising_drain hpor hm hh
    refine ⟨_, hexec, fun hs hw => ?_, fun hstate => ?_⟩
    · rw [stopEngine_granted (he ▸ hs) (hwd ▸ hw)]
      simp only [afterEvent_frame]
      exact ⟨by rw [he], hq⟩
    · have hrel : ∃ y, stopEngine x = releaseAndStop y ∧ y.engine = s.engine ∧ y.queue = s.queue ∧
          (s.engine.state = .writing → y.port.waiting.drain = none) := by
        by_cases hwr : s.engine.state = .writing
        · have hne : s.port.waiting.drain ≠ none := by
            rcases hstate with h | h | h | ⟨-, h⟩
            · rw [hwr] at h; cases h
            · rw [hwr] at h; cases h
            · rw [hwr] at h; cases h
            · exact h
          exact ⟨_, stopEngine_ungranted (he ▸ hwr) (hwd ▸ hne), he, hq, fun _ => rfl⟩
        · refine ⟨x, stopEngine_released ?_, he, hq, fun h => absurd h hwr⟩
          rw [he]
          rcases hstate with h | h | h | ⟨h, -⟩
          · exact .inl h
          · exact .inr (.inl h)
          · exact .inr (.inr h)
          · exact absurd h hwr
      obtain ⟨y, hstop, hye, hyq, hyw⟩ := hrel
      rw [hstop]
      simp only [afterEvent_frame]
      refine ⟨by rw [← hye]; rfl, fun hwr => ?_, fun hnil => ?_, fun body st rest hcons => ?_⟩
      · exact afterEvent_waiting_none (s := releaseAndStop y) (r := .drain) _ (hyw hwr)
      · show releaseHead y.queue = []
        rw [hyq, hnil]
        rfl
      · show releaseHead y.queue = _
        rw [hyq, hcons]
        rfl
  · intro hs hw a b rest h hpend u
    let x : State := endedWith (memWrite s.memory a b) s.freeIndex (withMrdy true s)
    have hdone {w : DrainWrite} {v : State} (ho : s.engine.outstanding = some w)
        (hv : releaseAndStop (reportWritten w false x) = v)
        (hp : v.port = { s.port with timeout := none }) (hm : v.control.mode = s.control.mode) :
        exec .mrdyReady s = .next (portAtRest v) := by
      have hdel : deliver ⟨.drain, .write a b, .busyWatch⟩ .done
          (completed ⟨.drain, .write a b, .busyWatch⟩ .done (withMrdy true s)) = v := by
        rw [completed_done]
        show drainCompletion .done x = _
        rw [drainCompletion_stopping (s := x) _ hs ho, stoppingCompletion, if_neg (by decide), hv]
      have hwv : v.port.waiting = ⟨none, none, none, none⟩ := by rw [hp]; exact hw
      rw [exec_mrdyReady_busyWatch h, endAccess_quiet hdel hwv (by rw [hp]) hm]
    refine ⟨fun line st more ho hq hr => ⟨memWrite s.memory a b, ?_, memWrite_frame _ _ _⟩,
      fun st ho hq hdrop => ⟨memWrite s.memory a b, ?_, memWrite_frame _ _ _⟩,
      fun w body st due ho hq ht => ?_⟩
    · have hrel : releaseHead (if more = [] then rest else ⟨.data line more, st⟩ :: rest) =
          if more = [] then rest else ⟨.data line more, .pending⟩ :: rest := by
        split
        · exact releaseHead_pending hpend
        · rfl
      rw [hdone ho (congrArg releaseAndStop (reportWritten_byte (s := x) false hh hq hr)) rfl rfl,
        queueLeft_byteDrained, releaseAndStop_released hrel]
      rfl
    · have hmode : (completeFence b { x with queue := rest }).control.mode = .hold ∨
          ∃ n, (completeFence b { x with queue := rest }).writer.state = .writing n := hdrop
      have hrep := reportWritten_tag (s := x) (a := a) false hh hq
      rw [requestStatusWrite_deferred (by exact hmode), reportIfEmpty_eq] at hrep
      rw [hdone ho (congrArg releaseAndStop hrep) rfl rfl,
        releaseAndStop_released (by exact releaseHead_pending hpend)]
      rfl
    · obtain ⟨m, n, hc, hl⟩ := completed_fault (s := timedOut due s) (r := .drain) (a := a) (b := b)
        (ph := .busyWatch)
      let y : State := endedWith m n (timedOut due s)
      have hdel : deliver ⟨.drain, .write a b, .busyWatch⟩ .fault
          (completed ⟨.drain, .write a b, .busyWatch⟩ .fault (timedOut due s)) =
          releaseAndStop (setCause .memFault y) := by
        rw [hc]
        show drainCompletion .fault y = _
        rw [drainCompletion_stopping (s := y) _ hs ho, stoppingCompletion, if_pos rfl]
      refine ⟨m, n, ?_, hl⟩
      rw [exec_writeTimeout_faults ht h rfl (.inr rfl), endAccess_quiet hdel hw rfl rfl]
      rw [releaseAndStop, show (setCause .memFault y).queue = _ from hq]
      rfl

/-! ### A slot freed for a stalled write (R10, R41) -/

/-- The counts of a queued write's notices (R44). -/
def counts (s : State) : BitVec 16 × BitVec 16 × Byte :=
  (s.status.deferred, s.status.merged, s.status.rejected)

@[simp] theorem advanceReading_counts (s : State) : counts (advanceReading s) = counts s := by
  simp [counts]

theorem judgeDescriptor_counts (s : State) : counts (judgeDescriptor s) = counts s := by
  unfold judgeDescriptor
  split <;> rfl

theorem finishReading_counts (n : Nat) (s : State) : counts (finishReading n s) = counts s := by
  have hidle (s : State) : counts (readingEnded s) = counts s := judgeDescriptor_counts s
  induction n generalizing s with
  | zero => rfl
  | succ n ih =>
    by_cases hc : readingComplete s = true
    · cases hh : s.descriptor.held with
      | none => rw [finishReading_ends n hc (.inl hh), hidle]
      | some b =>
        by_cases hb : b = (judgeDescriptor s).descriptor.generation
        · rw [finishReading_ends n hc (.inr (by rw [hh, hb])), hidle]
        · rw [finishReading_again n hc hh hb, ih]
          exact (advanceReading_counts _).trans (hidle s)
    · rw [finishReading_incomplete _ (by simpa using hc)]

/-- A generation notice counts nothing (R44, R155). -/
theorem generationNotice_counts (b : Byte) (s : State) : counts (generationNotice b s) = counts s := by
  unfold generationNotice
  split
  · rfl
  · split
    · exact (finishReading_counts _ _).trans (advanceReading_counts _)
    · rfl

/-- What a slot freed leaves of the write that was stalled for it (R41, R44, R120, R155). -/
structure SlotTaken (s t : State) (a : Addr) (b : Byte) (merge rel merged : Bool) : Prop where
  queue : if a = 0xFFF11#20 then t.queue = s.queue ++ [⟨.fence b, .pending⟩] ∧ merged = false
    else queueTakes s.queue a b merge t.queue merged
  host : t.host = { s.host with
    access := if rel then none else some ⟨.write a b, .answered .done, false⟩, stallTimer := none }
  counts : counts t = (s.status.deferred + 1#16,
    if merged then s.status.merged + 1#16 else s.status.merged, s.status.rejected)
  engine : t.engine = s.engine
  same : a ≠ 0xFFF22#20 ∨ b = s.descriptor.generation → t.descriptor = s.descriptor
  reload : a = 0xFFF22#20 → b ≠ s.descriptor.generation → overlay s.queue 0xFFF20#20 = none →
    t.descriptor = { s.descriptor with reading := true, bytes := [] }

section Stalled

variable {s : State} {a : Addr} {b : Byte} {merge rel : Bool} {acc : PortAccess}
  (hacc : s.host.access = some ⟨.write a b, .stalled (.slot merge), rel⟩)

include hacc

/-- The write stalled for a slot, once the queue has taken it (R41, R155). -/
theorem acceptQueued_slotTaken {q : List Entry} {merged : Bool}
    (hq : if a = 0xFFF11#20 then q = s.queue ++ [⟨.fence b, .pending⟩] ∧ merged = false
      else queueTakes s.queue a b merge q merged)
    (hread : s.descriptor.reading = false) (hp : s.port.access = some acc) :
    SlotTaken s (stopStall (acceptQueued a b (tookIn q merged s))) a b merge rel merged := by
  let y : State := { countDeferred (tookIn q merged s) with host := { s.host with
    access := if rel then none else some ⟨.write a b, .answered .done, false⟩ } }
  have hanswer : answerHost .done (countDeferred (tookIn q merged s)) = y := by
    have hacc' : (countDeferred (tookIn q merged s)).host.access = _ := hacc
    rw [answerHost, hacc']
    cases rel <;> rfl
  have haccept : acceptQueued a b (tookIn q merged s) =
      if a = 0xFFF22#20 then generationNotice b y else y := by
    rw [acceptQueued, hanswer]
    rfl
  rw [haccept]
  split
  · next ha =>
    have hqueue : (generationNotice b y).queue = q := by simp only [generationNotice_frame]; rfl
    have hhost : (generationNotice b y).host = y.host := by simp only [generationNotice_frame]
    have hengine : (generationNotice b y).engine = s.engine := by
      simp only [generationNotice_frame]; rfl
    refine ⟨hqueue.symm ▸ hq, ?_, generationNotice_counts b y, hengine, fun h => ?_,
      fun _ hb hmiss => ?_⟩
    · rw [stopStall, hhost]
    · have hsame := generationNotice_same (s := y) (h.resolve_left (not_not.2 ha)) hread
      show (generationNotice b y).descriptor = _
      rw [hsame]
      rfl
    · have hmiss' : overlay q 0xFFF20#20 = none := by
        rw [if_neg (by rw [ha]; decide)] at hq
        rw [hq.2.2.2.2.1 _ (by rw [ha]; decide), hmiss]
      show (generationNotice b y).descriptor = _
      rw [generationNotice_starts (s := y) hread hb hmiss',
        portRequest_busy (s := readingBegun y) .load _ hp]
      rfl
  · next ha => exact ⟨hq, rfl, rfl, rfl, fun _ => rfl, fun h => absurd h ha⟩

/-- A slot freed takes the write stalled for it (R10, R41). -/
theorem slotFreed_takes (hstrobes : rel = true → s.pins.hoe = true ∧ s.pins.hwe = true)
    (hread : s.descriptor.reading = false) (hp : s.port.access = some acc)
    (hw : s.engine.state ≠ .emptyWait) (hroom : s.queue.length < 32) :
    ∃ merged, SlotTaken s (slotFreed s) a b merge rel merged := by
  have htake : ∃ q merged,
      takeIntoQueue a b merge s = some (acceptQueued a b (tookIn q merged s)) ∧
      if a = 0xFFF11#20 then q = s.queue ++ [⟨.fence b, .pending⟩] ∧ merged = false
        else queueTakes s.queue a b merge q merged := by
    by_cases ha : a = 0xFFF11#20
    · subst ha
      exact ⟨_, false, takeIntoQueue_fence hw hroom, by rw [if_pos rfl]; exact ⟨rfl, rfl⟩⟩
    · obtain ⟨q, merged, h, hq⟩ := takeIntoQueue_takes (b := b) (merge := merge) ha (.inl hw) (.inl hroom)
      exact ⟨q, merged, h, by rwa [if_neg ha]⟩
  obtain ⟨q, merged, htake, hq⟩ := htake
  have htaken := acceptQueued_slotTaken hacc hq hread hp
  refine ⟨merged, ?_⟩
  have hslot : slotFreed s = settleHost (stopStall (acceptQueued a b (tookIn q merged s))) := by
    rw [slotFreed, hacc]
    dsimp only
    rw [htake]
  rw [hslot]
  cases rel with
  | false =>
    have hbusy := congrArg HostPort.access htaken.host
    rwa [settleHost_busy hbusy]
  | true =>
    obtain ⟨hoe, hwe⟩ := hstrobes rfl
    have hnone : busOp (stopStall (acceptQueued a b (tookIn q merged s))).pins = none := by
      simp [stopStall, tookIn, busOp, hoe, hwe]
    rwa [settleHost_noStrobe hnone]

end Stalled

/-- A request for a status write leaves the engine's state (R143). -/
theorem requestStatusWrite_engine_state (s : State) :
    (requestStatusWrite s).engine.state = s.engine.state := by
  rcases requestStatusWrite_cases s with ⟨-, he⟩ | ⟨-, -, he⟩ | ⟨-, -, he⟩ <;> rw [he]
  simp [beginStatusWrite, reportBegun]

/-- What the end of a drain write has changed when it frees the head's slot, as the stalled write meets it. -/
structure HeadGone (s x : State) (rest : List Entry) : Prop where
  queue : x.queue = rest
  host : x.host = s.host
  descriptor : x.descriptor = s.descriptor
  counts : counts x = counts s
  access : x.port.access = s.port.access
  strobes : x.pins.hoe = s.pins.hoe ∧ x.pins.hwe = s.pins.hwe
  engine : x.engine.state = .writing

/-- What the rest of the completion keeps of the write taken. -/
def keepsTaken (v t : State) : Prop :=
  t.queue = v.queue ∧ t.host = v.host ∧ counts t = counts v ∧ t.descriptor = v.descriptor ∧
    t.engine.state = .wait

/-- The end of an access keeps what its delivery kept of the write taken (R106). -/
theorem endAccess_keepsTaken {s v : State} {acc : PortAccess} {c : Completion}
    (h : keepsTaken v (deliver acc c (completed acc c s))) : keepsTaken v (endAccess acc c s) := by
  simpa [keepsTaken, counts, endAccess_eq, idlePort] using h

/-- The done write of the head's last byte frees its slot and starts the gap (R16, R87, R90). -/
theorem drainDone_frees {s : State} {a : Addr} {b : Byte} {line : Line} {st : EntryState}
    {rest : List Entry} (hq : s.queue = ⟨.data line [(offsetOf a, b)], st⟩ :: rest)
    (he : (slotFreed { s with queue := rest, engine := { s.engine with attempts := 0 } }).engine.rampLevel
      ≠ 0) :
    keepsTaken (slotFreed { s with queue := rest, engine := { s.engine with attempts := 0 } })
      (drainDone ⟨false, a, b⟩ s) := by
  have hrep : reportWritten ⟨false, a, b⟩ true { s with engine := { s.engine with attempts := 0 } } =
      reportIfEmpty rest.isEmpty
        (slotFreed { s with queue := rest, engine := { s.engine with attempts := 0 } }) := by
    rw [reportWritten, hq, writtenReport_head rest (List.pairwise_singleton _ _)]
    rfl
  rw [drainDone, hrep, reportIfEmpty_eq, startGap_runs (by exact he)]
  exact ⟨rfl, rfl, rfl, rfl, rfl⟩

/-- The drop after the third fault frees the head's slot (R96, R97, R19). -/
theorem drainFault_frees {s : State} {e : Entry} {rest : List Entry} (hq : s.queue = e :: rest)
    (hat : s.engine.attempts = 2) :
    keepsTaken (slotFreed { setCause .memFault s with queue := rest }) (drainFault s) := by
  have hdrop : drainFault s = dropEntry (setCause .memFault s) := by
    rw [drainFault]
    dsimp only
    rw [if_neg (by omega)]
  have htail : dropHead (setCause .memFault s).queue = rest := by
    show s.queue.tail = rest
    rw [hq]
    rfl
  rw [hdrop, dropEntry, htail]
  dsimp only
  rw [reportIfEmpty_eq]
  refine ⟨by simp, by simp, by simp [counts], by simp, ?_⟩
  rw [requestStatusWrite_engine_state]

/-- The head's slot is freed, and the rest of the completion keeps what the stalled write leaves (R41). -/
theorem drainEnd_frees {s : State} {a : Addr} {b : Byte} {w : DrainWrite} {e : Entry}
    {rest : List Entry} {c : Instr} (hp : s.port.access = some ⟨.drain, .write a b, .busyWatch⟩)
    (hs : s.engine.state = .writing) (ho : s.engine.outstanding = some w)
    (hramp : s.engine.rampLevel ≠ 0) (hq : s.queue = e :: rest)
    (hcase : c = .mrdyReady ∧ w = ⟨false, a, b⟩ ∧ (∃ line, e.body = .data line [(offsetOf a, b)]) ∨
      c = .writeTimeout ∧ s.port.timeout ≠ none ∧ s.engine.attempts = 2) :
    ∃ x t, exec c s = .next t ∧ HeadGone s x rest ∧
      ((slotFreed x).engine = x.engine → keepsTaken (slotFreed x) t) := by
  rcases hcase with ⟨rfl, rfl, line, hbody⟩ | ⟨rfl, ht, hat⟩
  · let y : State := endedWith (memWrite s.memory a b) s.freeIndex (withMrdy true s)
    refine ⟨{ y with queue := rest, engine := { y.engine with attempts := 0 } }, _,
      exec_mrdyReady_busyWatch hp, ⟨rfl, rfl, rfl, rfl, rfl, ⟨rfl, rfl⟩, hs⟩,
      fun he => endAccess_keepsTaken ?_⟩
    rw [completed_done]
    show keepsTaken _ (drainCompletion .done y)
    rw [drainCompletion_writing (s := y) _ hs ho, if_neg (by decide)]
    obtain ⟨body, st⟩ := e
    cases hbody
    exact drainDone_frees (s := y) hq (by rw [he]; exact hramp)
  · obtain ⟨due, ht⟩ := Option.ne_none_iff_exists'.1 ht
    obtain ⟨m, n, hc, -⟩ := completed_fault (s := timedOut due s) (r := .drain) (a := a) (b := b)
      (ph := .busyWatch)
    let y : State := endedWith m n (timedOut due s)
    refine ⟨{ setCause .memFault y with queue := rest }, _,
      exec_writeTimeout_faults ht hp rfl (.inr rfl), ⟨rfl, rfl, rfl, rfl, rfl, ⟨rfl, rfl⟩, hs⟩,
      fun _ => endAccess_keepsTaken ?_⟩
    rw [hc]
    show keepsTaken _ (drainCompletion .fault y)
    rw [drainCompletion_writing (s := y) _ hs ho, if_pos rfl]
    exact drainFault_frees (s := y) hq hat

/-- Settles O29. -/
theorem freedSlotTakesStalledWrite : Obligations.FreedSlotTakesStalledWrite := by
  intro s a a' b b' w e rest merge rel c hacc hstrobes hread hp _ hs ho hramp hq hlen hcase
  obtain ⟨x, t, hexec, hgone, hkeeps⟩ := drainEnd_frees hp hs ho hramp hq hcase
  obtain ⟨merged, htaken⟩ := slotFreed_takes (s := x) (a := a') (b := b') (merge := merge)
    (rel := rel) (by rw [hgone.host]; exact hacc) (by rw [hgone.strobes.1, hgone.strobes.2]; exact hstrobes)
    (by rw [hgone.descriptor]; exact hread) (by rw [hgone.access]; exact hp)
    (by rw [hgone.engine]; decide) (by rw [hgone.queue]; omega)
  obtain ⟨htq, hth, htc, htd, hte⟩ := hkeeps htaken.engine
  obtain ⟨hqueue, hhost, hcounts, -, hsame, hreload⟩ := htaken
  have hxc := hgone.counts
  rw [← htc] at hcounts
  simp only [counts, Prod.mk.injEq] at hcounts hxc
  obtain ⟨hdef, hmer, hrej⟩ := hcounts
  obtain ⟨hxdef, hxmer, hxrej⟩ := hxc
  rw [hgone.queue, ← htq] at hqueue
  rw [hgone.host, ← hth] at hhost
  rw [hgone.descriptor, ← htd] at hsame hreload
  rw [hgone.queue] at hreload
  exact ⟨t, merged, hexec, hqueue, hhost, hxdef ▸ hdef, hxmer ▸ hmer, hrej.trans hxrej, hte, hsame,
    hreload⟩

end Sys2Proof.Machine

/-! ## The ends of status writes (8.5) -/

namespace Sys2Proof.Machine

open Sys2Proof

set_option Elab.async false

/-! ### The end as the reports find it (R144, R149) -/

/-- The state at the end of an access: the clock, the pins, the memory and the free values may have moved
(log 3), and the timer has stopped. -/
def atEnd (p : Pins) (now : Nat) (m : Memory) (k : Nat) (s : State) : State := { s with
  pins := p, now := now, memory := m, freeIndex := k, port := { s.port with timeout := none } }

/-- The state with the writer IDLE after a write not abandoned, its end recorded (R144, R149). -/
def writeRecorded (fault : Bool) (s : State) : State := { s with
  writer := { s.writer with
    state := .idle, abandoned := false
    record := if fault then .faulted else .completed s.writer.image.safety }
  status := { s.status with
    causes := if fault then s.status.causes ||| 0x20#8 else s.status.causes
    unmarked := if fault = true ∨ s.writer.image.safety = .clean then s.status.unmarked else false } }

/-- What follows the record of an end: the reports, a pending write, and at start-up the first mode
(R144, R168). -/
def recordedEnds (s : State) : State :=
  if s.control.mode = .startup ∧ s.sequencer.step = .startWrite then
    chooseFirstMode (beginPending (reportEnd s))
  else beginPending (reportEnd s)

section Ends

variable {s : State} {n : Offset} {op : BusOp} {ph : Phase} (hw : s.writer.state = .writing n)

include hw

theorem statusCompletion_done (hn : n = 15#4) (ha : s.writer.abandoned = false) :
    statusCompletion .done s = recordedEnds (writeRecorded false s) := by
  subst hn
  have hrec : writerIdle (recordDone s) = writeRecorded false s := by
    simp [writerIdle, recordDone, writeRecorded]
  rw [statusCompletion, hw]
  dsimp only
  rw [if_neg (by simp [ha]), if_neg (by decide), if_pos rfl, statusWriteEnded, hrec]
  rfl

theorem statusCompletion_fault (ha : s.writer.abandoned = false) :
    statusCompletion .fault s = recordedEnds (writeRecorded true s) := by
  rw [statusCompletion, hw]
  dsimp only
  rw [if_neg (by simp [ha]), if_pos rfl]
  simp only [writeRecorded, true_or, if_true]
  rfl

/-- The done end of a byte 0 to 14 requests the next byte (R144). -/
theorem statusCompletion_next {acc : PortAccess} (hn : n ≠ 15#4) (ha : s.writer.abandoned = false)
    (hp : s.port.access = some acc) : statusCompletion .done s = { s with
      writer := { s.writer with state := .writing (n + 1#4) }
      port := { s.port with waiting := { s.port.waiting with
        status := some (.write (0xFFF0#16 ++ (n + 1#4)) (s.writer.image.byte (n + 1#4))) } } } := by
  rw [statusCompletion, hw]
  dsimp only
  rw [if_neg (by simp [ha]), if_neg (by decide), if_neg hn]
  exact portRequest_busy .status _ hp

/-- The last byte of an abandoned write ends it with its record as it was (R145). -/
theorem statusCompletion_abandoned (c : Completion) (ha : s.writer.abandoned = true) :
    statusCompletion c s =
      beginPending (writerIdle (if c = .fault then setCause .memFault s else s)) := by
  rw [statusCompletion, hw]
  dsimp only
  rw [if_pos ha]

end Ends

/-! ### The reports and the pending write -/

/-- An end that nobody awaits is reported to no effect (R49, R89). -/
theorem reportEnd_nobody {s : State} (hc : ∀ k, s.control.awaited ≠ some ⟨k, true⟩)
    (he : s.engine.awaited ≠ .begun) : reportEnd s = s := by
  unfold reportEnd
  dsimp only
  rw [if_neg he]
  split
  · next k h => exact absurd h (hc k)
  · rfl

/-- The end of the write that the drain engine alone awaits (R89). -/
theorem reportEnd_engine {s : State} (hc : ∀ k, s.control.awaited ≠ some ⟨k, true⟩)
    (he : s.engine.awaited = .begun) : reportEnd s = engineStatusEnded s := by
  unfold reportEnd
  dsimp only
  rw [if_pos he]
  split
  · next k h => exact absurd h (hc k)
  · rfl

/-- The end of the write that the mode controller alone awaits (R49). -/
theorem reportEnd_controller {s : State} {k : AwaitedKind} (hc : s.control.awaited = some ⟨k, true⟩)
    (he : s.engine.awaited ≠ .begun) : reportEnd s = awaitedEnded k s := by
  unfold reportEnd
  rw [hc]
  dsimp only
  rw [if_neg he]

theorem recordedEnds_working {s : State}
    (h : s.control.mode = .startup → s.sequencer.step ≠ .startWrite) :
    recordedEnds s = beginPending (reportEnd s) := if_neg fun hs => h hs.1 hs.2

/-- The pending write begins at once, its byte 0 waiting behind the access in progress (R144). -/
theorem beginPending_busy {s : State} {acc : PortAccess} (hi : s.writer.state = .idle)
    (hpend : s.writer.pending = true) (hp : s.port.access = some acc) :
    beginPending s = statusBegun { s with writer := { s.writer with pending := false } } := by
  rw [beginPending, if_pos ⟨hi, hpend⟩]
  exact beginStatusWrite_busy (acc := acc) hp

/-- A claim while an access is in progress leaves the head's write waiting (R86, R104). -/
theorem claimHead_busy {s : State} {e : Entry} {rest : List Entry} {w : DrainWrite}
    {acc : PortAccess} (hq : s.queue = e :: rest) (hw : headWrite e w)
    (hp : s.port.access = some acc) : claimHead s = { s with
      queue := { e with state := .draining } :: rest
      engine := { s.engine with state := .writing, outstanding := some w }
      port := { s.port with waiting := { s.port.waiting with
        drain := some (.write w.addr w.byte) } } } := by
  unfold claimHead
  rw [hq, headClaim_of_headWrite rest hw]
  exact portRequest_busy .drain _ hp

/-! ### The commands that end a status byte -/

section Commands

variable {s : State} {a : Addr} {b : Byte} {n : Offset} {op : BusOp} {ph : Phase} {fault : Bool}

theorem deliver_statusDone (hw : s.writer.state = .writing n) (hn : n = 15#4)
    (ha : s.writer.abandoned = false) : deliver ⟨.status, .write a b, ph⟩ .done
      (completed ⟨.status, .write a b, ph⟩ .done (withMrdy true s)) =
        recordedEnds (writeRecorded false (atEnd { s.pins with mrdy := true } s.now
          (memWrite s.memory a b) s.freeIndex s)) :=
  statusCompletion_done hw hn ha

theorem deliver_statusFault {due : Nat} (hw : s.writer.state = .writing n)
    (ha : s.writer.abandoned = false) : ∃ m k, deliver ⟨.status, .write a b, ph⟩ .fault
      (completed ⟨.status, .write a b, ph⟩ .fault (timedOut due s)) =
        recordedEnds (writeRecorded true (atEnd s.pins (max s.now due) m k s)) ∧
      faultLeaves s a ph m k := by
  obtain ⟨m, k, hc, hl⟩ := completed_fault (s := timedOut due s) (r := .status) (a := a) (b := b)
    (ph := ph)
  refine ⟨m, k, ?_, hl⟩
  rw [hc]
  exact statusCompletion_fault hw ha

/-- The end of a status write that was not abandoned, done or faulted (R144, R149). -/
theorem exec_statusEnd (h : s.port.access = some ⟨.status, op, ph⟩) (hop : op.isRead = false)
    (hp : ph = .busyWatch ∨ (fault = true ∧ ph = .readyWait)) (ht : s.port.timeout ≠ none ∨ fault = false)
    (hw : s.writer.state = .writing n) (ha : s.writer.abandoned = false)
    (hn : fault = false → n = 15#4) :
    ∃ p now m k x, exec (if fault then .writeTimeout else .mrdyReady) s =
        .next (endAccess ⟨.status, op, ph⟩ (if fault then .fault else .done) x) ∧
      x.control.mode = s.control.mode ∧ x.port.waiting = s.port.waiting ∧
      deliver ⟨.status, op, ph⟩ (if fault then .fault else .done)
        (completed ⟨.status, op, ph⟩ (if fault then .fault else .done) x) =
        recordedEnds (writeRecorded fault (atEnd p now m k s)) := by
  cases op with
  | read a => cases hop
  | write a b =>
    cases fault with
    | false =>
      have hph : ph = .busyWatch := hp.resolve_right fun hf => Bool.false_ne_true hf.1
      subst hph
      exact ⟨_, _, _, _, _, exec_mrdyReady_busyWatch h, rfl, rfl, deliver_statusDone hw (hn rfl) ha⟩
    | true =>
      obtain ⟨due, ht⟩ := Option.ne_none_iff_exists'.1 (ht.resolve_right Bool.noConfusion)
      obtain ⟨m, k, hd, -⟩ := deliver_statusFault (a := a) (b := b) (ph := ph) (due := due) hw ha
      exact ⟨_, _, _, _, _, exec_writeTimeout_faults ht h hop (hp.symm.imp_left And.right), rfl, rfl, hd⟩

end Commands

/-- The decision after a status byte's end that requests its next byte: STATUS stands first (R107). -/
theorem decideAtEnd_nextByte {s : State} {op : BusOp} {w : Waiting} (hp : s.port.access = none)
    (hw : s.port.waiting = { w with status := some op }) (hm : s.control.mode ≠ .hold) :
    decideAtEnd .status w s = grant .status op s := by
  have hfresh : newRequests .status w s.port.waiting = [] := by
    rw [hw]
    simp [newRequests, Requester.all, Waiting.get]
  have hg := gateOpen_status op hm
  unfold decideAtEnd
  dsimp only
  rw [hfresh, if_pos (.inl rfl)]
  refine decideGrant_choice hp ?_
  rw [hw]
  simp [grantChoice, eligible, Waiting.get, Option.filter, hg]

/-! ### The bytes and the ends of a write that the mode does not await (R89, R107, R144, R145) -/

theorem writeRecorded_done {s : State} (ha : s.writer.abandoned = false) :
    writeRecorded false s = { s with
      writer := { s.writer with state := .idle, record := .completed s.writer.image.safety }
      status := { s.status with
        unmarked := if s.writer.image.safety = .clean then s.status.unmarked else false } } := by
  simp [writeRecorded, ha]

theorem writeRecorded_fault {s : State} (ha : s.writer.abandoned = false) :
    writeRecorded true s = { s with
      writer := { s.writer with state := .idle, record := .faulted }
      status := { s.status with causes := s.status.causes ||| 0x20#8 } } := by
  simp [writeRecorded, ha]

theorem writeRecorded_status (fault : Bool) (s : State) : (writeRecorded fault s).status =
    { s.status with
      causes := if fault then s.status.causes ||| 0x20#8 else s.status.causes
      unmarked := if fault then s.status.unmarked else
        if s.writer.image.safety = .clean then s.status.unmarked else false } := by
  cases fault <;> simp [writeRecorded]

/-- An end that nobody awaits, with no write pending, is recorded and no more (R144). -/
theorem recordedEnds_quiet {s : State} (hs : s.control.mode = .startup → s.sequencer.step ≠ .startWrite)
    (hc : ∀ k, s.control.awaited ≠ some ⟨k, true⟩) (he : s.engine.awaited ≠ .begun)
    (hp : s.writer.pending = false) : recordedEnds s = s := by
  rw [recordedEnds_working hs, reportEnd_nobody hc he, beginPending_none hp]

/-- At an end that nobody awaits a pending write begins (R144). -/
theorem recordedEnds_pending {s : State} {acc : PortAccess}
    (hs : s.control.mode = .startup → s.sequencer.step ≠ .startWrite)
    (hc : ∀ k, s.control.awaited ≠ some ⟨k, true⟩) (he : s.engine.awaited ≠ .begun)
    (hi : s.writer.state = .idle) (hp : s.writer.pending = true) (hb : s.port.access = some acc) :
    recordedEnds s = statusBegun { s with writer := { s.writer with pending := false } } := by
  rw [recordedEnds_working hs, reportEnd_nobody hc he, beginPending_busy hi hp hb]

/-- At the end of the write that the engine awaits its WAIT may end (R89). -/
theorem recordedEnds_engine {s : State} (hs : s.control.mode = .startup → s.sequencer.step ≠ .startWrite)
    (hc : ∀ k, s.control.awaited ≠ some ⟨k, true⟩) (he : s.engine.awaited = .begun)
    (hp : s.writer.pending = false) :
    recordedEnds s = endWait { s with engine := { s.engine with awaited := .nothing } } := by
  rw [recordedEnds_working hs, reportEnd_engine hc he, beginPending_none]
  · rfl
  · simpa [engineStatusEnded] using hp

/-- The pending write's first byte is granted as the access ends (R106, R144). -/
theorem endAccess_pending {s u : State} {acc : PortAccess} {c : Completion}
    (hd : deliver acc c (completed acc c s) = statusBegun u)
    (hw : u.port.waiting = ⟨none, none, none, none⟩) (hm : u.control.mode = s.control.mode)
    (hne : s.control.mode ≠ .hold) : endAccess acc c s =
      grant .status (.write 0xFFF00#20 (u.shadow.byte 0#4)) (idlePort (statusBegun u)) := by
  refine endAccess_status hd ?_ hm hne
  show { u.port.waiting with status := some (BusOp.write 0xFFF00#20 (u.shadow.byte 0#4)) } = _
  rw [hw]

/-- The grant of a status byte leaves the other requests waiting (R106). -/
theorem put_status_granted {w : Waiting} (op : Option BusOp) (h : w.status = none) :
    ({ w with status := op } : Waiting).put .status none = w := by
  obtain ⟨ws, wl, wh, wd⟩ := w
  cases h
  rfl

section StatusByte

variable {s : State} {n : Offset} {a : Addr} {b : Byte}
  (h : s.port.access = some ⟨.status, .write a b, .busyWatch⟩) (hw : s.writer.state = .writing n)

include h hw

/-- The next byte of the image is granted at once (R107, R144). -/
theorem exec_statusByte_next (hm : s.control.mode ≠ .hold) (hws : s.port.waiting.status = none)
    (hn : n ≠ 15#4) (ha : s.writer.abandoned = false) :
    exec .mrdyReady s = .next { s with
      pins := { s.pins with mrdy := true }
      writer := { s.writer with state := .writing (n + 1#4) }
      port := ⟨some ⟨.status, .write (0xFFF0#16 ++ (n + 1#4)) (s.writer.image.byte (n + 1#4)),
        .writeStrobe false⟩, s.port.waiting, s.port.marker, some (s.now + 2000)⟩
      memory := memForget (memWrite s.memory a b) (0xFFF0#16 ++ (n + 1#4)) } := by
  let x : State := endedWith (memWrite s.memory a b) s.freeIndex (withMrdy true s)
  let op : BusOp := .write (0xFFF0#16 ++ (n + 1#4)) (s.writer.image.byte (n + 1#4))
  let y : State := { x with
    writer := { x.writer with state := .writing (n + 1#4) }
    port := { x.port with waiting := { x.port.waiting with status := some op } } }
  have hd : deliver ⟨.status, .write a b, .busyWatch⟩ .done
      (completed ⟨.status, .write a b, .busyWatch⟩ .done (withMrdy true s)) = y :=
    statusCompletion_next (s := x) hw hn ha h
  have hdec : decideAtEnd .status s.port.waiting (idlePort y) = grant .status op (idlePort y) :=
    decideAtEnd_nextByte rfl rfl hm
  have hgrant : (idlePort y).port.waiting.put .status none = s.port.waiting :=
    put_status_granted _ hws
  rw [exec_mrdyReady_busyWatch h, endAccess_eq, hd]
  refine congrArg Host.Outcome.next ((congrArg (afterEvent s.control.mode) hdec).trans ?_)
  rw [grant_eq, hgrant]
  exact afterEvent_same rfl

variable (ha : s.writer.abandoned = true) (hwait : s.port.waiting = ⟨none, none, none, none⟩)

include ha hwait

/-- An abandoned write ends with its record as it was (R145). -/
theorem exec_abandoned_done (hpend : s.writer.pending = false) : exec .mrdyReady s = .next { s with
    pins := { s.pins with mrdy := true }
    writer := { s.writer with state := .idle, abandoned := false }
    port := ⟨none, ⟨none, none, none, none⟩, s.port.marker, none⟩
    memory := memWrite s.memory a b } := by
  let x : State := endedWith (memWrite s.memory a b) s.freeIndex (withMrdy true s)
  have hd : deliver ⟨.status, .write a b, .busyWatch⟩ .done
      (completed ⟨.status, .write a b, .busyWatch⟩ .done (withMrdy true s)) = writerIdle x :=
    (statusCompletion_abandoned (s := x) hw .done ha).trans (beginPending_none hpend)
  rw [exec_mrdyReady_busyWatch h, endAccess_quiet hd hwait rfl rfl]
  rfl

theorem exec_abandoned_fault (hpend : s.writer.pending = false) {due : Nat}
    (ht : s.port.timeout = some due) : ∃ m k, exec .writeTimeout s = .next { s with
        now := max s.now due
        writer := { s.writer with state := .idle, abandoned := false }
        status := { s.status with causes := s.status.causes ||| 0x20#8 }
        port := ⟨none, ⟨none, none, none, none⟩, s.port.marker, none⟩
        memory := m
        freeIndex := k } ∧
      faultLeaves s a .busyWatch m k := by
  obtain ⟨m, k, hc, hl⟩ := completed_fault (s := timedOut due s) (r := .status) (a := a) (b := b)
    (ph := .busyWatch)
  let x : State := endedWith m k (timedOut due s)
  have hd : deliver ⟨.status, .write a b, .busyWatch⟩ .fault
      (completed ⟨.status, .write a b, .busyWatch⟩ .fault (timedOut due s)) =
      writerIdle (setCause .memFault x) := by
    rw [hc]
    exact (statusCompletion_abandoned (s := x) hw .fault ha).trans (beginPending_none hpend)
  refine ⟨m, k, ?_, hl⟩
  rw [exec_writeTimeout_faults ht h rfl (.inr rfl), endAccess_quiet hd hwait rfl rfl]
  rfl

/-- At the end of an abandoned write a pending write begins (R145). -/
theorem exec_abandoned_pending (hpend : s.writer.pending = true) (hm : s.control.mode ≠ .hold) :
    exec .mrdyReady s = .next (grant .status (.write 0xFFF00#20 (s.shadow.byte 0#4)) (idlePort
      (statusBegun { atEnd { s.pins with mrdy := true } s.now (memWrite s.memory a b) s.freeIndex s with
        writer := { s.writer with state := .idle, abandoned := false, pending := false } }))) := by
  let x : State := endedWith (memWrite s.memory a b) s.freeIndex (withMrdy true s)
  have hd : deliver ⟨.status, .write a b, .busyWatch⟩ .done
      (completed ⟨.status, .write a b, .busyWatch⟩ .done (withMrdy true s)) = statusBegun
        { writerIdle x with writer := { (writerIdle x).writer with pending := false } } :=
    (statusCompletion_abandoned (s := x) hw .done ha).trans
      (beginPending_busy (s := writerIdle x) rfl hpend h)
  rw [exec_mrdyReady_busyWatch h, endAccess_pending hd hwait rfl hm]
  rfl

end StatusByte

/-- What the end of the write that the engine awaits does in DRAIN: its WAIT ends in a claim, or goes on
(R86, R89, R93). `z` is the state without the awaited flag. -/
theorem endAccess_engineEnd {x z : State} {acc acc' : PortAccess} {c : Completion}
    (hd : deliver acc c (completed acc c x) = endWait z)
    (hwait : z.port.waiting = ⟨none, none, none, none⟩) (ht : z.port.timeout = none)
    (hmode : z.control.mode = x.control.mode) (hp : z.port.access = some acc')
    (hm : z.control.mode = .drain) :
    (endAccess acc c x).writer = z.writer ∧ (endAccess acc c x).control = z.control ∧
      (z.engine.state ≠ .wait ∨ z.engine.gapTimer ≠ none →
        (endAccess acc c x).queue = z.queue ∧ (endAccess acc c x).engine = z.engine) ∧
      (z.engine.state = .wait → z.engine.gapTimer = none → z.engine.awaited = .nothing →
        (z.queue = [] → (endAccess acc c x).queue = [] ∧ (endAccess acc c x).port.access = none ∧
          (endAccess acc c x).engine = { z.engine with state := .emptyWait, outstanding := none }) ∧
        ∀ e rest w, z.queue = e :: rest → headWrite e w →
          (endAccess acc c x).queue = { e with state := .draining } :: rest ∧
          (endAccess acc c x).engine = { z.engine with state := .writing, outstanding := some w } ∧
          (endAccess acc c x).port.access.map (fun acc => (acc.requester, acc.op)) =
            some (.drain, .write w.addr w.byte)) := by
  refine ⟨?_, ?_, fun hwt => ?_, fun hwt hgap haw => ⟨fun hq => ?_, fun e rest w hq hhw => ?_⟩⟩
  · rw [endAccess_eq, hd]
    simp only [afterEvent_frame, decideAtEnd_frame, idlePort, endWait_frame]
  · rw [endAccess_eq, hd]
    simp only [afterEvent_frame, decideAtEnd_frame, idlePort, endWait_frame]
  · have hgo : endWait z = z := endWait_goesOn (hwt.imp_right .inl)
    rw [endAccess_quiet (hd.trans hgo) hwait ht hmode]
    exact ⟨rfl, rfl⟩
  · have hclaim := (endWait_claims hwt hgap haw).trans (claimHead_empty hq)
    rw [endAccess_quiet (hd.trans hclaim) hwait ht hmode]
    exact ⟨hq, rfl, rfl⟩
  · have hclaim := (endWait_claims hwt hgap haw).trans (claimHead_busy hq hhw hp)
    rw [endAccess_grants (r := .drain) (op := .write w.addr w.byte) (hd.trans hclaim) ?_ hmode ?_,
      grant_eq]
    · exact ⟨rfl, rfl, rfl⟩
    · rw [hwait]
      rfl
    · show gateOpen z.control.mode _ _ = true
      rw [hm]
      rfl

/-- Settles O50. -/
theorem statusWriteByteEnds : Obligations.StatusWriteByteEnds := by
  intro s n a b h hw
  refine ⟨fun hm hws hn ha => ?_, ?_, ?_⟩
  · refine ⟨_, exec_statusByte_next h hw hm hws hn ha, fun hne => ?_, fun a' ha' hn' => ?_⟩
    · rw [memRead_memForget_other _ hne, memRead_memWrite_same]
    · rw [memRead_memForget_other _ hn', memRead_memWrite_other _ _ ha']
  · intro hwait ha hstart hc quiet cleared
    refine ⟨fun he hpend => ⟨fun hn => ⟨_, ?_, memWrite_frame s.memory a b⟩, fun due ht => ?_⟩,
      fun fault c hcase => ?_⟩
    · rw [exec_mrdyReady_busyWatch h, endAccess_quiet ((deliver_statusDone hw hn ha).trans
        (recordedEnds_quiet hstart hc he hpend)) hwait rfl rfl, writeRecorded_done (s := atEnd _ _ _ _ s) ha]
      rfl
    · obtain ⟨m, k, hd, hl⟩ := deliver_statusFault (s := s) (a := a) (b := b) (ph := .busyWatch)
        (due := due) hw ha
      refine ⟨m, k, ?_, hl⟩
      rw [exec_writeTimeout_faults ht h rfl (.inr rfl), endAccess_quiet (hd.trans
        (recordedEnds_quiet hstart hc he hpend)) hwait rfl rfl, writeRecorded_fault (s := atEnd _ _ _ _ s) ha]
      rfl
    · have hend : ∃ p now m k x d, exec c s = .next (endAccess ⟨.status, .write a b, .busyWatch⟩ d x) ∧
          x.control.mode = s.control.mode ∧
          deliver ⟨.status, .write a b, .busyWatch⟩ d
            (completed ⟨.status, .write a b, .busyWatch⟩ d x) =
            recordedEnds (writeRecorded fault (atEnd p now m k s)) := by
        rcases hcase with ⟨rfl, rfl, hn⟩ | ⟨rfl, rfl, ht⟩
        · obtain ⟨p, now, m, k, x, he, hm, -, hd⟩ := exec_statusEnd (fault := false) h rfl (.inl rfl)
            (.inr rfl) hw ha fun _ => hn
          exact ⟨p, now, m, k, x, _, he, hm, hd⟩
        · obtain ⟨p, now, m, k, x, he, hm, -, hd⟩ := exec_statusEnd (fault := true) h rfl (.inl rfl)
            (.inl ht) hw ha Bool.noConfusion
          exact ⟨p, now, m, k, x, _, he, hm, hd⟩
      obtain ⟨p, now, m, k, x, d, hexec, hmode, hd⟩ := hend
      let u : State := writeRecorded fault (atEnd p now m k s)
      refine ⟨fun he hpend hm => ?_, fun he hpend hm => ?_⟩
      · rw [recordedEnds_pending (s := u) hstart hc he rfl hpend h] at hd
        rw [hexec, endAccess_pending hd hwait hmode.symm (hmode ▸ hm), grant_eq]
        refine ⟨_, rfl, rfl, ?_, rfl, rfl, rfl⟩
        exact writeRecorded_status fault (atEnd p now m k s)
      · let z : State := { u with engine := { u.engine with awaited := .nothing } }
        have hz : recordedEnds u = endWait z := recordedEnds_engine (s := u) hstart hc he hpend
        obtain ⟨hwr, hco, hgo, hend⟩ := endAccess_engineEnd (hd.trans hz) hwait rfl hmode.symm h hm
        exact ⟨_, hexec, congrArg StatusWriter.state hwr, hco, hgo, fun hwt hg => hend hwt hg rfl⟩
  · intro hwait ha
    refine ⟨fun hpend => ⟨⟨_, exec_abandoned_done h hw ha hwait hpend, memWrite_frame s.memory a b⟩,
      fun due ht => exec_abandoned_fault h hw ha hwait hpend ht⟩, fun hpend hm => ?_⟩
    rw [exec_abandoned_pending h hw ha hwait hpend hm, grant_eq]
    exact ⟨_, rfl, rfl, rfl, rfl, rfl⟩

end Sys2Proof.Machine

/-! ## The ends of the awaited writes and of the start-up write (R55, R62, R67, R168) -/

namespace Sys2Proof.Machine

open Sys2Proof

set_option Elab.async false

/-! ### What the end of the access leaves of the delivery -/

section Delivery

variable {s u : State} {acc : PortAccess} {c : Completion}
  (hd : deliver acc c (completed acc c s) = u)

include hd

theorem endAccess_delivered :
    (endAccess acc c s).host = u.host ∧ (endAccess acc c s).queue = u.queue ∧
    (endAccess acc c s).control = u.control ∧ (endAccess acc c s).engine = u.engine ∧
    (endAccess acc c s).status = u.status ∧ (endAccess acc c s).writer = u.writer ∧
    (endAccess acc c s).descriptor = u.descriptor ∧
    (endAccess acc c s).sequencer = u.sequencer ∧ (endAccess acc c s).now = u.now := by
  rw [endAccess_eq, hd]
  simp [idlePort]

/-- The only request that waits after the delivery has the port, also where the mode changed (R106). -/
theorem endAccess_access {r : Requester} {op : BusOp}
    (hw : u.port.waiting = (⟨none, none, none, none⟩ : Waiting).put r (some op))
    (hg : gateOpen u.control.mode r op = true) :
    (endAccess acc c s).port.access.map (fun acc => (acc.requester, acc.op)) = some (r, op) := by
  rw [endAccess_eq, hd, decideAtEnd_one (s := idlePort u) (r := r) (op := op) _ _ rfl hw hg, grant_eq]
  rw [afterEvent_access _ rfl]
  rfl

end Delivery

/-! ### The causes only grow (R134) -/

theorem beginPending_status (s : State) : (beginPending s).status = s.status := by
  unfold beginPending
  split
  · simp
  · rfl

theorem beginPending_host (s : State) : (beginPending s).host = s.host := by
  unfold beginPending
  split
  · simp
  · rfl

/-- The states in which no access is in progress and the given cause is pending. -/
def pendsAlone (k : Nat) (s : State) : Prop :=
  s.host.access = none ∧ s.status.causes.getLsbD k = true

theorem pendsAlone_congr {k : Nat} {s t : State} (hh : t.host = s.host)
    (hc : t.status.causes = s.status.causes) (h : pendsAlone k s) : pendsAlone k t := by
  rwa [pendsAlone, hh, hc]

theorem hostModeChanged_pends {k : Nat} {s : State} (h : pendsAlone k s) :
    pendsAlone k (hostModeChanged s) := by
  rwa [hostModeChanged_none h.1]

theorem evaluateExit_pends {k : Nat} {s : State} (h : pendsAlone k s) : pendsAlone k (evaluateExit s) := by
  by_cases hx : s.control.mode = .hold ∧ exitCondition s = true
  · rw [evaluateExit_leaves hx.1 hx.2]
    have hstatus : (exitAwaited s).host = s.host ∧
        (exitAwaited s).status.causes = s.status.causes := by
      unfold exitAwaited
      split <;> exact ⟨rfl, rfl⟩
    refine hostModeChanged_pends (pendsAlone_congr ?_ ?_ h)
    · simpa using hstatus.1
    · simpa using hstatus.2
  · rwa [evaluateExit, if_neg hx]

theorem awaitedEnded_pends {k : Nat} {s : State} (a : AwaitedKind) (h : pendsAlone k s) :
    pendsAlone k (awaitedEnded a s) := by
  have hnone : pendsAlone k (awaitNone s) := h
  unfold awaitedEnded
  dsimp only
  split
  · refine evaluateExit_pends ?_
    rw [enterHold_eq]
    exact hostModeChanged_pends (pendsAlone_congr (by simp [holdEntered])
      (by simp [holdEntered, determineUnmarked]) hnone)
  · unfold startEngine
    split
    · exact pendsAlone_congr (by simp) (by simp) hnone
    · exact hnone
  · refine hostModeChanged_pends ⟨hnone.1, ?_⟩
    show (s.status.causes ||| _).getLsbD k = true
    rw [BitVec.getLsbD_or, h.2, Bool.true_or]
  · exact hnone

theorem reportEnd_pends {k : Nat} {s : State} (h : pendsAlone k s) : pendsAlone k (reportEnd s) := by
  have hengine (x : State) (hx : pendsAlone k x) :
      pendsAlone k (if s.engine.awaited = .begun then engineStatusEnded x else x) := by
    split
    · exact pendsAlone_congr (by simp [engineStatusEnded]) (by simp [engineStatusEnded]) hx
    · exact hx
  unfold reportEnd
  refine hengine _ ?_
  split
  · exact awaitedEnded_pends _ h
  · exact h

theorem chooseFirstMode_pends {k : Nat} {s : State} (h : pendsAlone k s) :
    pendsAlone k (chooseFirstMode s) := by
  unfold chooseFirstMode
  dsimp only
  split
  · refine hostModeChanged_pends ⟨by simpa [awaitWrite, setSafety, setMode] using h.1, ?_⟩
    simp only [requestStatusWrite_frame]
    show (s.status.causes ||| _).getLsbD k = true
    rw [BitVec.getLsbD_or, h.2, Bool.true_or]
  · exact hostModeChanged_pends h

/-- What follows a recorded end keeps every cause pending (R134). -/
theorem recordedEnds_pends {k : Nat} {s : State} (h : pendsAlone k s) : pendsAlone k (recordedEnds s) := by
  have hb : pendsAlone k (beginPending (reportEnd s)) :=
    pendsAlone_congr (beginPending_host _) (congrArg _ (beginPending_status _)) (reportEnd_pends h)
  unfold recordedEnds
  split
  · exact chooseFirstMode_pends hb
  · exact hb

/-! ### What each awaited write's end leaves, the writer IDLE and no host access (R55, R62, R67) -/

section Awaited

variable {s : State} {acc : PortAccess}

/-- HOLD entered with the writer IDLE, from a mode but DRAIN (R51, R148). -/
def heldIdle (s : State) : State := { s with
  control := { s.control with mode := .hold, awaited := none }
  writer := { s.writer with pending := false }
  status := { s.status with safety := .held, unmarked := recordUnmarked s.writer.record } }

theorem enterHold_idle (hm : s.control.mode ≠ .drain) (hi : s.writer.state = .idle)
    (hh : s.host.access = none) : enterHold s = heldIdle s := by
  have hab (x : State) (hx : x.writer.state = .idle) :
      abandonStatusWrite x = { x with writer := { x.writer with pending := false } } := by
    rw [abandonStatusWrite, hx]
  have hentered : holdEntered s = heldIdle s := by
    rw [holdEntered, hab _ (by exact hi), leaveDrain, if_neg hm]
    rfl
  rw [enterHold_eq, hentered, hostModeChanged_none (by exact hh)]

theorem awaitedEnded_held (hm : s.control.mode = .entering) (hi : s.writer.state = .idle)
    (hh : s.host.access = none) : awaitedEnded .held s = evaluateExit (heldIdle s) := by
  have hhold : enterHold (awaitNone s) = heldIdle s :=
    enterHold_idle (s := awaitNone s) (by show s.control.mode ≠ .drain; rw [hm]; decide) hi hh
  rw [← hhold]
  simp only [awaitedEnded, hm]

/-- The exit from HOLD begins its write, the byte waiting behind the access in progress (R59, R143). -/
theorem evaluateExit_begins (hm : s.control.mode = .hold) (hx : exitCondition s = true)
    (hi : s.writer.state = .idle) (hh : s.host.access = none) (hp : s.port.access = some acc) :
    evaluateExit s = statusBegun (exitAwaited s) := by
  have hfields : (exitAwaited s).host = s.host ∧ (exitAwaited s).writer = s.writer ∧
      (exitAwaited s).port = s.port ∧ (exitAwaited s).control.mode ≠ .hold := by
    unfold exitAwaited
    split
    · exact ⟨rfl, rfl, rfl, show Mode.closing ≠ .hold by decide⟩
    · exact ⟨rfl, rfl, rfl, show Mode.drain ≠ .hold by decide⟩
  obtain ⟨hho, hwr, hpo, hne⟩ := hfields
  rw [evaluateExit_leaves hm hx, requestStatusWrite_busy hne (by rw [hwr]; exact hi)
    (by rw [hpo]; exact hp)]
  exact hostModeChanged_none (by rw [← hh, ← hho]; rfl)

/-- The engine started by the end of the DRAINING write: its claim waits behind the access (R62, R85). -/
theorem awaitedEnded_draining {e : Entry} {rest : List Entry} {w : DrainWrite}
    (hm : s.control.mode = .drain) (hs : s.engine.state = .stopped) (hq : s.queue = e :: rest)
    (hw : headWrite e w) (hp : s.port.access = some acc) :
    awaitedEnded .draining s = { s with
      control := { s.control with awaited := none }
      queue := { e with state := .draining } :: rest
      engine := { s.engine with
        state := .writing, outstanding := some w, attempts := 0, awaited := .nothing
        rampTimer := some (s.now + if s.config.rampSelect then 2000 else 500) }
      port := { s.port with waiting := { s.port.waiting with
        drain := some (.write w.addr w.byte) } } } := by
  have hstart : awaitedEnded .draining s = startEngine (awaitNone s) := by
    simp only [awaitedEnded, hm]
  rw [hstart, startEngine, if_pos (by exact hs)]
  exact claimHead_busy (acc := acc) (s := { awaitNone s with engine := { s.engine with
    rampTimer := some (s.now + rampPeriod s.config.rampSelect), attempts := 0, awaited := .nothing } })
    hq hw hp

/-- NORMAL entered from CLOSING, with DRAIN_DONE (R67). -/
def normalEntered (s : State) : State := { s with
  control := { s.control with mode := .normal, awaited := none }
  status := { s.status with causes := s.status.causes ||| 0x02#8 } }

theorem awaitedEnded_final (hm : s.control.mode = .closing) (hh : s.host.access = none) :
    awaitedEnded .final s = normalEntered s := by
  have hclose : awaitedEnded .final s = closeToNormal (awaitNone s) := by
    simp only [awaitedEnded, hm]
  rw [hclose, closeToNormal]
  exact hostModeChanged_none (s := normalEntered s) hh

end Awaited

/-- The end of the write that the mode controller alone awaits, outside STARTUP (R49, R144). -/
theorem recordedEnds_awaited {s : State} {k : AwaitedKind} (hm : s.control.mode ≠ .startup)
    (hc : s.control.awaited = some ⟨k, true⟩) (he : s.engine.awaited = .nothing) :
    recordedEnds s = beginPending (awaitedEnded k s) := by
  rw [recordedEnds_working fun h => absurd h hm, reportEnd_controller hc (by rw [he]; decide)]

/-- The fields of the exit that the HELD write's end is followed by (R59 to R61). -/
theorem exitBegun_fields (s : State) (hg : s.monitor.state = .good) :
    (statusBegun (exitAwaited s)).control = { s.control with
        mode := if s.queue = [] then .closing else .drain
        awaited := some ⟨if s.queue = [] then .final else .draining, true⟩ } ∧
      (statusBegun (exitAwaited s)).status = { s.status with
        safety := if s.queue = [] then .clean else .draining } ∧
      (statusBegun (exitAwaited s)).writer.state = .writing 0#4 ∧
      (statusBegun (exitAwaited s)).writer.pending = s.writer.pending ∧
      (statusBegun (exitAwaited s)).writer.image.mode =
        (if s.queue = [] then .closing else .drain) := by
  unfold exitAwaited
  split
  · refine ⟨rfl, ?_, rfl, rfl, rfl⟩
    show { s.status with safety := monitorSafety s.monitor.state } = _
    rw [hg]
    rfl
  · exact ⟨rfl, rfl, rfl, rfl, rfl⟩

theorem writeRecorded_writer {s : State} (fault : Bool) (ha : s.writer.abandoned = false) :
    (writeRecorded fault s).writer = { s.writer with
      state := .idle
      record := if fault then .faulted else .completed s.writer.image.safety } := by
  simp [writeRecorded, ha]

/-- A HELD write's record leaves UNMARKED but for a done non-CLEAN image (R148). -/
theorem recordUnmarked_held (fault : Bool) (f : Safety) :
    recordUnmarked (if fault then .faulted else .completed f) = true ↔ fault = true ∨ f = .clean := by
  cases fault <;> cases f <;> simp [recordUnmarked]

/-- Settles O51. -/
theorem awaitedWriteEndMovesMode : Obligations.AwaitedWriteEndMovesMode := by
  intro s n op ph k fault h hop hp hwait ht hw ha hn hc he hh record unmarked
  obtain ⟨p, now, m, j, x, hexec, hmx, hwx, hd⟩ := exec_statusEnd h hop hp (.inl ht) hw ha hn
  let u : State := writeRecorded fault (atEnd p now m j s)
  have hends (hne : s.control.mode ≠ .startup) : recordedEnds u = beginPending (awaitedEnded k u) :=
    recordedEnds_awaited (s := u) hne hc he
  refine ⟨_, hexec, fun hf => ?_, ?_, ?_, ?_⟩
  · have hbit : pendsAlone 5 u := by
      subst hf
      refine ⟨hh, ?_⟩
      show (s.status.causes ||| 0x20#8).getLsbD 5 = true
      rw [BitVec.getLsbD_or]
      simp
    have hpends := recordedEnds_pends hbit
    rw [(endAccess_delivered hd).2.2.2.2.1]
    exact hpends.2
  · rintro rfl hm
    have hheld := awaitedEnded_held (s := u) hm rfl hh
    rw [hends (by rw [hm]; decide), hheld] at hd
    have hrec := recordUnmarked_held fault s.writer.image.safety
    by_cases hx : exitCondition (heldIdle u) = true
    · have hxs : s.control.hreq = false ∧ s.monitor.state = .good := by
        simpa [exitCondition, heldIdle, u, writeRecorded, atEnd] using hx
      have hbegin := evaluateExit_begins (s := heldIdle u) rfl hx rfl hh h
      obtain ⟨hco, hst, hws, hpe, him⟩ := exitBegun_fields (heldIdle u) hxs.2
      rw [hbegin, beginPending_none hpe] at hd
      obtain ⟨-, -, htc, -, hts, htw, -⟩ := endAccess_delivered hd
      rw [htc, hts, htw, hco, hst]
      refine ⟨rfl, rfl, hrec, fun hor => ?_, fun _ _ => ⟨rfl, rfl, rfl, hws, him⟩⟩
      rcases hor with hor | hor
      · rw [hxs.1] at hor; cases hor
      · rw [hxs.2] at hor; cases hor
    · have hxf : exitCondition (heldIdle u) = false := Bool.eq_false_iff.2 hx
      rw [evaluateExit_stays (.inr hxf), beginPending_none rfl] at hd
      obtain ⟨-, -, htc, -, hts, htw, -⟩ := endAccess_delivered hd
      rw [htc, hts, htw]
      refine ⟨rfl, rfl, hrec, fun _ => ⟨rfl, rfl, ?_⟩, fun hl hg => ?_⟩
      · show { u.writer with pending := false } = _
        rw [show u.writer = _ from writeRecorded_writer (s := atEnd p now m j s) fault ha]
        rfl
      · refine absurd ?_ hx
        simp [exitCondition, heldIdle, u, writeRecorded, atEnd, hl, hg]
  · rintro rfl hm hs hpend body st rest w hq hhw
    have hdr : beginPending (awaitedEnded .draining u) = _ :=
      (congrArg beginPending (awaitedEnded_draining (s := u) hm hs hq hhw h)).trans
        (beginPending_none hpend)
    rw [hends (by rw [hm]; decide), hdr] at hd
    rw [endAccess_grants (r := .drain) (op := .write w.addr w.byte) hd ?_ hmx.symm ?_, grant_eq]
    · exact ⟨rfl, rfl, rfl, hm, rfl, rfl, rfl, rfl, rfl, rfl⟩
    · show ({ s.port.waiting with drain := some (BusOp.write w.addr w.byte) } : Waiting) = _
      rw [hwait]
      rfl
    · show gateOpen s.control.mode _ _ = true
      rw [hm]
      rfl
  · rintro rfl hm
    have hfin := awaitedEnded_final (s := u) hm hh
    rw [hends (by rw [hm]; decide), hfin] at hd
    have hcause : (normalEntered u).status.causes.getLsbD 1 = true := by
      show ((if fault then _ else _) ||| 0x02#8).getLsbD 1 = true
      simp
    cases hpend : s.writer.pending with
    | false =>
      rw [beginPending_none (s := normalEntered u) hpend] at hd
      obtain ⟨-, -, htc, -, hts, htw, -⟩ := endAccess_delivered hd
      rw [State.heldPin, htc, hts, htw]
      exact ⟨rfl, rfl, rfl, hcause, rfl, rfl, fun _ => ⟨rfl, rfl⟩, Bool.noConfusion⟩
    | true =>
      rw [beginPending_busy (s := normalEntered u) rfl hpend h] at hd
      obtain ⟨-, -, htc, -, hts, htw, -⟩ := endAccess_delivered hd
      have haccess := endAccess_access (r := .status) hd (by
        show ({ s.port.waiting with status := some _ } : Waiting) = _
        rw [hwait]
        rfl) (gateOpen_status _ (show Mode.normal ≠ .hold by decide))
      have himage := (causes_getLsbD (k := 1) { normalEntered u with
        writer := { (normalEntered u).writer with pending := false } } (by decide)).trans hcause
      rw [State.heldPin, htc, hts, htw, haccess]
      exact ⟨rfl, rfl, rfl, hcause, rfl, rfl, Bool.noConfusion,
        fun _ => ⟨rfl, rfl, rfl, rfl, himage, rfl, rfl⟩⟩

/-! ### The first working mode (R168) -/

/-- NORMAL chosen at the end of the start-up write (R168). -/
def startedNormal (s : State) : State := { s with
  sequencer := { s.sequencer with step := .ended }, control := { s.control with mode := .normal } }

/-- ENTERING chosen at the end of the start-up write, the HELD write not yet requested (R54, R168). -/
def startedEntering (s : State) : State := { s with
  sequencer := { s.sequencer with step := .ended }
  control := { s.control with mode := .entering, reason := .forced, awaited := some ⟨.held, false⟩ }
  status := { s.status with
    safety := .held, causes := s.status.causes ||| 0x01#8, episodes := s.status.episodes + 1#8 } }

theorem startedEntering_control {s : State} (h : s.control.hreq = true) :
    (startedEntering s).control = ⟨.entering, .forced, true, some ⟨.held, false⟩⟩ := by
  rw [← h]
  rfl

theorem statusBegun_control (s : State) : (statusBegun s).control = { s.control with
    awaited := s.control.awaited.map fun a => { a with begun := true } } := rfl

theorem statusBegun_unawaited {s : State} (h : s.control.awaited = none) :
    (statusBegun s).control = s.control := by
  rw [statusBegun_control, h, Option.map_none, ← h]

section FirstMode

variable {s : State} (hh : s.host.access = none)

include hh

theorem chooseFirstMode_normal (hr : s.control.hreq = false) :
    chooseFirstMode s = startedNormal s := by
  unfold chooseFirstMode
  dsimp only
  rw [if_neg (by simp [hr])]
  exact hostModeChanged_none (s := startedNormal s) hh

theorem chooseFirstMode_entering (hr : s.control.hreq = true) :
    chooseFirstMode s = requestStatusWrite (startedEntering s) := by
  unfold chooseFirstMode
  dsimp only
  rw [if_pos hr]
  refine hostModeChanged_none (s := requestStatusWrite (startedEntering s)) ?_
  rw [(requestStatusWrite_frame _).2.2.2.1]
  exact hh

end FirstMode

/-- Settles O55. -/
theorem startUpChoosesFirstMode : Obligations.StartUpChoosesFirstMode := by
  intro s n op ph fault hm hstep h hop hp hwait ht hw ha hn hc he hh
  obtain ⟨p, now, m, j, x, hexec, -, -, hd⟩ := exec_statusEnd h hop hp (.inl ht) hw ha hn
  let u : State := writeRecorded fault (atEnd p now m j s)
  have hends : recordedEnds u = chooseFirstMode (beginPending u) := by
    rw [recordedEnds, if_pos ⟨hm, hstep⟩, reportEnd_unawaited (s := u) hc he]
  have hbit : fault = true → u.status.causes.getLsbD 5 = true := fun hf => by
    subst hf
    show (s.status.causes ||| 0x20#8).getLsbD 5 = true
    simp
  have hbit' : fault = true → (u.status.causes ||| 0x01#8).getLsbD 5 = true := fun hf => by
    rw [BitVec.getLsbD_or, hbit hf, Bool.true_or]
  have hentered : (u.status.causes ||| 0x01#8).getLsbD 0 = true := by simp
  rw [hends] at hd
  refine ⟨_, hexec, ?_⟩
  cases hpend : s.writer.pending with
  | false =>
    rw [beginPending_none (s := u) hpend] at hd
    cases hr : s.control.hreq with
    | false =>
      rw [chooseFirstMode_normal (s := u) hh hr] at hd
      obtain ⟨-, -, htc, -, hts, htw, -, htq, -⟩ := endAccess_delivered hd
      rw [State.heldPin, htc, hts, htw, htq]
      exact ⟨rfl, hbit, rfl, rfl, fun _ => ⟨rfl, rfl, rfl, fun _ => ⟨rfl, rfl⟩, Bool.noConfusion⟩,
        Bool.noConfusion, Bool.noConfusion⟩
    | true =>
      rw [chooseFirstMode_entering (s := u) hh hr,
        requestStatusWrite_busy (s := startedEntering u) (show Mode.entering ≠ .hold by decide) rfl
          h] at hd
      obtain ⟨-, -, htc, -, hts, htw, -, htq, -⟩ := endAccess_delivered hd
      have hco : (statusBegun (startedEntering u)).control =
          ⟨.entering, .forced, true, some ⟨.held, true⟩⟩ := by
        rw [statusBegun_control, startedEntering_control (s := u) hr]
        rfl
      rw [State.heldPin, htc, hts, htw, htq, hco]
      exact ⟨rfl, hbit', rfl, rfl, Bool.noConfusion,
        fun _ => ⟨rfl, rfl, hentered, rfl, hpend, fun _ => ⟨rfl, rfl, rfl⟩⟩, Bool.noConfusion⟩
  | true =>
    let b : State := statusBegun { u with writer := { u.writer with pending := false } }
    have hbc : b.control = s.control := statusBegun_unawaited hc
    rw [beginPending_busy (s := u) rfl hpend h] at hd
    cases hr : s.control.hreq with
    | false =>
      rw [chooseFirstMode_normal (s := b) hh (by rw [hbc]; exact hr)] at hd
      obtain ⟨-, -, htc, -, hts, htw, -, htq, -⟩ := endAccess_delivered hd
      have hco : (startedNormal b).control = { s.control with mode := .normal } := by
        rw [← hbc]
        rfl
      rw [State.heldPin, htc, hts, htw, htq, hco]
      exact ⟨rfl, hbit, rfl, rfl, fun _ => ⟨rfl, rfl, rfl, Bool.noConfusion, fun _ => rfl⟩,
        Bool.noConfusion, fun _ => ⟨rfl, rfl, hm, rfl⟩⟩
    | true =>
      rw [chooseFirstMode_entering (s := b) hh (by rw [hbc]; exact hr),
        requestStatusWrite_inFlight (s := startedEntering b) (show Mode.entering ≠ .hold by decide)
          rfl] at hd
      obtain ⟨-, -, htc, -, hts, htw, -, htq, -⟩ := endAccess_delivered hd
      have hco := startedEntering_control (s := b) (by rw [hbc]; exact hr)
      rw [State.heldPin, htc, hts, htw, htq]
      dsimp only
      rw [hco]
      exact ⟨rfl, hbit', rfl, rfl, Bool.noConfusion,
        fun _ => ⟨rfl, rfl, hentered, rfl, rfl, Bool.noConfusion⟩, fun _ => ⟨rfl, rfl, hm, rfl⟩⟩

end Sys2Proof.Machine

/-! ## The start-up sequencer's readings (10.2, 10.3) -/

namespace Sys2Proof.Machine

open Sys2Proof

set_option Elab.async false

/-! ### The byte of a LOAD read (R109, R113) -/

section LoadByte

variable {s : State} {a : Addr} {v : Byte} (h : s.port.access = some ⟨.load, .read a, .readStrobe false⟩)
  (hv : memRead s.memory a = some v)

include h hv

/-- A byte that the memory knows is delivered as it is (R109). -/
theorem exec_loadByte : exec .readStrobeEnd s =
    .next (endAccess ⟨.load, .read a, .readStrobe false⟩ (.byte v) s) := by
  rw [exec_readStrobeEnd h]
  simp only [driveByte, BusOp.addr, hv]

end LoadByte

theorem deliver_loadByte (s : State) (a : Addr) (v : Byte) :
    deliver ⟨.load, .read a, .readStrobe false⟩ (.byte v)
      (completed ⟨.load, .read a, .readStrobe false⟩ (.byte v) s) =
        loadCompletion v (endedWith s.memory s.freeIndex s) := rfl

/-! ### The end of the line's reading (R162, R163) -/

/-- The state with the line judged and the descriptor's reading at index 0 (R163, R164). -/
def lineJudged (s : State) : State := { assessLine s.sequencer.bytes s with
  sequencer := { s.sequencer with step := .descriptorLoad }
  descriptor := { s.descriptor with reading := true, bytes := [] } }

/-- The sixteenth byte ends the line's reading (R162). -/
theorem continueStatusRead_full {s : State} (h : s.sequencer.bytes.length = 16) :
    continueStatusRead s = continueStartLoad (lineJudged s) := by
  have hg : gatherHeld s.queue statusBase statusLength statusLength s.sequencer.bytes =
      s.sequencer.bytes := by
    show gatherHeld _ _ _ (15 + 1) _ = _
    rw [gatherHeld, if_neg (by rw [h]; decide)]
  unfold continueStatusRead
  rw [hg]
  dsimp only
  rw [if_neg (by rw [h]; decide)]
  simp only [lineJudged, assessLine_frame]

/-- A descriptor byte that the queue does not hold is a LOAD read at start-up too (R164). -/
theorem continueStartLoad_missed {s : State} (hl : s.descriptor.bytes.length < 49)
    (h : overlay s.queue (0xFFF20#20 + BitVec.ofNat 20 s.descriptor.bytes.length) = none) :
    continueStartLoad s =
      portRequest .load (.read (0xFFF20#20 + BitVec.ofNat 20 s.descriptor.bytes.length)) s := by
  unfold continueStartLoad
  dsimp only
  rw [advanceReading_missed hl h, readingComplete_short (by simpa using hl), if_neg (by decide)]

/-! ### The loss assessment (Table 10-2) -/

theorem safetyOf_code (c : BitVec 2) : (safetyOf c).code = c := by
  revert c
  decide

theorem safetyOf_clean (c : BitVec 2) : safetyOf c = .clean ↔ c = 0#2 := by
  revert c
  decide

theorem safetyBits_zero (b : Byte) : b.extractLsb' 3 2 = 0#2 ↔ b &&& 0x18#8 = 0#8 := by
  revert b
  decide

theorem lineSafety_clean (bs : List Byte) :
    lineSafety bs = .clean ↔ (bs.getD 0 0#8) &&& 0x18#8 = 0#8 := by
  rw [lineSafety, safetyOf_clean, safetyBits_zero]
  rfl

theorem statusLineValid_iff (bs : List Byte) :
    statusLineValid bs = true ↔ (bs.map BitVec.toNat).sum % 256 = 0 := by
  rw [statusLineValid, beq_iff_eq, byteSum_eq_zero_iff]

section Assessed

variable {bs : List Byte} (s : State)

theorem assessLine_clean (hv : statusLineValid bs = true) (hc : lineSafety bs = .clean) :
    assessLine bs s = { s with
      status := { s.status with
        fenceUnknown := false, lastTag := lineTag bs, fenceLoss := lineFenceLoss bs }
      engine := { s.engine with openLoss := false }
      writer := { s.writer with record := .empty } } := by
  rw [assessLine, if_pos hv]
  dsimp only
  rw [if_pos hc]

theorem assessLine_unclean (hv : statusLineValid bs = true) (hc : lineSafety bs ≠ .clean) :
    assessLine bs s = { s with
      status := { s.status with
        causes := s.status.causes ||| 0x40#8, fenceUnknown := false
        lastTag := lineTag bs, fenceLoss := lineFenceLoss bs }
      engine := { s.engine with openLoss := lineOpenLoss bs }
      writer := { s.writer with record := .completed (lineSafety bs) } } := by
  rw [assessLine, if_pos hv]
  dsimp only
  rw [if_neg hc]
  rfl

theorem assessLine_invalid (hv : ¬ statusLineValid bs = true) :
    assessLine bs s = { s with
      status := { s.status with
        causes := s.status.causes ||| 0x40#8, fenceUnknown := true
        lastTag := 0#8, fenceLoss := false }
      engine := { s.engine with openLoss := false }
      writer := { s.writer with record := .empty } } := by
  rw [assessLine, if_neg hv]
  rfl

end Assessed

/-- Settles O52. -/
theorem startUpAssessesLine : Obligations.StartUpAssessesLine := by
  intro s a b line hm h hw hq hstep hlen hv hline
  let x : State := endedWith s.memory s.freeIndex s
  let z : State := { x with sequencer := { x.sequencer with bytes := line } }
  let j : State := lineJudged z
  have hjq : j.queue = [] := by simpa [j, lineJudged, z, x, endedWith] using hq
  have hjp : j.port = { s.port with timeout := none } := by simp [j, lineJudged, z, x, endedWith]
  have hjc : j.control = s.control := by simp [j, lineJudged, z, x, endedWith]
  have hjm : j.memory = s.memory := by simp [j, lineJudged, z, x, endedWith]
  let u : State := { j with port := { j.port with
    waiting := j.port.waiting.put .load (some (.read 0xFFF20#20)) } }
  have hd : deliver ⟨.load, .read a, .readStrobe false⟩ (.byte b)
      (completed ⟨.load, .read a, .readStrobe false⟩ (.byte b) s) = u := by
    rw [deliver_loadByte]
    have hload : loadCompletion b x = continueStatusRead z := by
      rw [loadCompletion, show x.sequencer.step = _ from hstep]
      simp only [z, hline]
      rfl
    have hmiss := continueStartLoad_missed (s := j) (show 0 < 49 by decide) (by rw [hjq]; rfl)
    have hbusy : j.port.access = some ⟨.load, .read a, .readStrobe false⟩ := by rw [hjp]; exact h
    rw [hload, continueStatusRead_full (by simp [z, hline, hlen]), hmiss, portRequest_busy _ _ hbusy]
    rfl
  have hend := endAccess_grants (r := .load) (op := .read 0xFFF20#20) hd
    (by show j.port.waiting.put .load (some (.read 0xFFF20#20)) = _; rw [hjp, hw]) (congrArg ModeController.mode hjc)
    (by show gateOpen j.control.mode _ _ = true; rw [hjc, hm]; rfl)
  rw [exec_loadByte h hv, hend, grant_eq]
  refine ⟨_, rfl, rfl, rfl, rfl, rfl, hjm, ?_⟩
  have hfields {y : State} (hy : assessLine line z = y) : j.status = y.status ∧ j.engine = y.engine ∧
      j.writer = y.writer := by rw [← hy]; exact ⟨rfl, rfl, rfl⟩
  refine ⟨fun ⟨hvalid, hclean⟩ => ?_, fun ⟨hvalid, hclean⟩ => ?_, fun hvalid => ?_⟩
  · obtain ⟨hs, he, hwr⟩ := hfields (assessLine_clean z ((statusLineValid_iff line).2 hvalid)
      ((lineSafety_clean line).2 hclean))
    exact ⟨(congrArg StatusUnit.causes hs :), (congrArg StatusUnit.fenceUnknown hs :),
      (congrArg StatusUnit.lastTag hs :), (congrArg StatusUnit.fenceLoss hs :),
      (congrArg DrainEngine.openLoss he :), (congrArg StatusWriter.record hwr :)⟩
  · have hunclean : lineSafety line ≠ .clean := fun hc => hclean ((lineSafety_clean line).1 hc)
    obtain ⟨hs, he, hwr⟩ := hfields
      (assessLine_unclean z ((statusLineValid_iff line).2 hvalid) hunclean)
    exact ⟨(congrArg StatusUnit.causes hs :), (congrArg StatusUnit.fenceUnknown hs :),
      (congrArg StatusUnit.lastTag hs :), (congrArg StatusUnit.fenceLoss hs :),
      (congrArg DrainEngine.openLoss he :), lineSafety line, (congrArg StatusWriter.record hwr :), hunclean,
      safetyOf_code _⟩
  · obtain ⟨hs, he, hwr⟩ := hfields (assessLine_invalid z fun hv => hvalid ((statusLineValid_iff line).1 hv))
    exact ⟨(congrArg StatusUnit.causes hs :), (congrArg StatusUnit.fenceUnknown hs :),
      (congrArg StatusUnit.lastTag hs :), (congrArg StatusUnit.fenceLoss hs :),
      (congrArg DrainEngine.openLoss he :), (congrArg StatusWriter.record hwr :)⟩

end Sys2Proof.Machine

/-! ## The end of the start-up load and the first sample (9.3, 4.2, 10.3) -/

namespace Sys2Proof.Machine

open Sys2Proof

set_option Elab.async false

/-! ### The apply at start-up and the first sample (R153, R164, R72) -/

/-- The state with the start-up descriptor applied, or the default configuration (R153, R164). -/
def startApplied (s : State) : State := { s with
  descriptor := ⟨some (if descriptorValid s.descriptor.bytes then descriptorConfig s.descriptor.bytes
      else Configuration.default),
    if descriptorValid s.descriptor.bytes then s.descriptor.bytes.getD 2 0#8 else 0#8,
    false, s.descriptor.bytes, none⟩
  monitor := { s.monitor with warnRun := 0, recoveryRun := 0 }
  status := { s.status with
    causes := if descriptorValid s.descriptor.bytes then s.status.causes
      else s.status.causes ||| 0x80#8 } }

theorem applyAtStart_eq (s : State) : applyAtStart s = startApplied s := by
  unfold applyAtStart startApplied
  dsimp only
  split <;> rfl

/-- The state after the first sample, its timer aimed one period ahead (R71, R72). -/
def firstSampled (s : State) : State := { s with
  monitor := ⟨if sampleClass s = .good then s.monitor.state else .warned, 0, 0,
    some ⟨s.now, s.now + samplePeriod s.control.mode⟩⟩
  engine := (engineClass (sampleClass s) s).engine }

theorem measure_first (s : State) : measure sampleFirst s =
    (match sampleClass s with
      | .good => .nothing
      | .marginal => .warn
      | .low => .warnTrip, firstSampled s) := by
  have hclass (c : SupplyClass) (m : SupplyMonitor) :
      engineClass c { s with monitor := m } = { s with
        monitor := m, engine := (engineClass c s).engine } := by
    unfold engineClass
    dsimp only
    split <;> rfl
  unfold measure firstSampled
  dsimp only
  rw [hclass]
  cases sampleClass s <;> rfl

/-- A first sample that is not LOW begins the start-up write (R166). -/
theorem finishStartLoad_begins {s : State} (h : sampleClass (startApplied s) ≠ .low) :
    finishStartLoad s = beginStartWrite (firstSampled (startApplied s)) := by
  rw [finishStartLoad, applyAtStart_eq, measure_first]
  cases hc : sampleClass (startApplied s) with
  | low => exact absurd hc h
  | _ => rfl

/-- A LOW first sample enters HOLD (R165). -/
theorem finishStartLoad_trips {s : State} (h : sampleClass (startApplied s) = .low) :
    finishStartLoad s = takeTrip (firstSampled (startApplied s)) := by
  rw [finishStartLoad, applyAtStart_eq, measure_first, h]

/-- With the forty-ninth byte taken the load ends (R164). -/
theorem continueStartLoad_full {s : State} (hr : s.descriptor.reading = true)
    (h : s.descriptor.bytes.length = 49) : continueStartLoad s = finishStartLoad s := by
  rw [continueStartLoad, advanceReading_full h]
  exact if_pos ((readingComplete_iff s).2 ⟨hr, h⟩)

/-! ### What follows the first sample -/

section First

variable {s : State} {acc : PortAccess} (hm : s.control.mode = .startup)
  (hi : s.writer.state = .idle)

include hm hi

/-- The start-up write begins, its byte waiting behind the access in progress (R166). -/
theorem beginStartWrite_busy (hp : s.port.access = some acc) :
    beginStartWrite s = statusBegun { s with
      sequencer := { s.sequencer with step := .startWrite }
      status := { s.status with safety := monitorSafety s.monitor.state } } :=
  requestStatusWrite_busy (show s.control.mode ≠ .hold by rw [hm]; decide) hi hp

/-- A LOW first sample's hold: the sequencer ended, an AUTO episode, HOLD (R165, R51). -/
theorem takeTrip_startup (hh : s.host.access = none) : takeTrip s = heldIdle { s with
    sequencer := { s.sequencer with step := .ended }
    control := { s.control with reason := .auto }
    status := { s.status with
      causes := s.status.causes ||| 0x01#8, episodes := s.status.episodes + 1#8 } } := by
  have hne : s.control.mode ≠ .drain := by rw [hm]; decide
  rw [takeTrip, hm]
  exact enterHold_idle (s := beginEpisode .auto
    { s with sequencer := { s.sequencer with step := .ended } }) hne hi hh

end First

/-- With nothing waiting after a delivery that changed the mode, the sample timer is re-aimed (R71, R106). -/
theorem endAccess_reaims {s u : State} {acc : PortAccess} {c : Completion}
    (hd : deliver acc c (completed acc c s) = u) (hw : u.port.waiting = ⟨none, none, none, none⟩)
    (hm : u.control.mode ≠ s.control.mode) :
    endAccess acc c s = reaim s.control.mode (idlePort u) := by
  rw [endAccess_eq, hd, decideAtEnd_quiet (s := idlePort u) acc.requester hw, afterEvent,
    if_neg (by exact hm)]
  exact decideGrant_nothing (by simpa [idlePort] using hw)

theorem engineClass_lastClass (c : SupplyClass) (s : State) :
    (engineClass c s).engine.lastClass = c := by
  unfold engineClass
  dsimp only
  split <;> rfl

/-- The start-up write begun at the end of the load: its first byte is granted at once (R166, R106). -/
theorem endAccess_startWrite {s f : State} {acc acc' : PortAccess} {c : Completion}
    (hd : deliver acc c (completed acc c s) = beginStartWrite f) (hm : f.control.mode = .startup)
    (hms : f.control.mode = s.control.mode) (hi : f.writer.state = .idle)
    (hp : f.port.access = some acc') (hw : f.port.waiting = ⟨none, none, none, none⟩) :
    let y : State := { f with
      sequencer := { f.sequencer with step := .startWrite }
      status := { f.status with safety := monitorSafety f.monitor.state } }
    endAccess acc c s =
      grant .status (.write 0xFFF00#20 (y.shadow.byte 0#4)) (idlePort (statusBegun y)) :=
  endAccess_pending (hd.trans (beginStartWrite_busy hm hi hp)) hw hms (by rw [← hms, hm]; decide)

/-- What the start-up write's beginning leaves and makes (R166, 10.3). -/
theorem endAccess_startWrite_fields {s f : State} {acc acc' : PortAccess} {c : Completion}
    (hd : deliver acc c (completed acc c s) = beginStartWrite f) (hm : f.control.mode = .startup)
    (hms : f.control.mode = s.control.mode) (hi : f.writer.state = .idle)
    (hp : f.port.access = some acc') (hw : f.port.waiting = ⟨none, none, none, none⟩) {t : State}
    (ht : endAccess acc c s = t) :
    t.descriptor = f.descriptor ∧ t.engine.lastClass = f.engine.lastClass ∧ t.monitor = f.monitor ∧
      t.memory = (if f.pins.mrdy then memForget f.memory 0xFFF00#20 else f.memory) ∧
      t.status = { f.status with safety := monitorSafety f.monitor.state } ∧
      t.control.mode = .startup ∧ t.sequencer.step = .startWrite ∧
      t.writer.state = .writing 0#4 ∧ t.writer.record = .started ∧
      t.writer.image.mode = .startup ∧ t.writer.image.safety = t.status.safety ∧
      t.writer.image.generation = t.descriptor.generation ∧
      t.port.access.map (fun acc => (acc.requester, acc.op)) =
        some (.status, .write 0xFFF00#20 (t.writer.image.byte 0#4)) := by
  rw [← ht, endAccess_startWrite hd hm hms hi hp hw, grant_eq]
  exact ⟨rfl, rfl, rfl, rfl, rfl, hm, rfl, rfl, rfl, hm, rfl, rfl, rfl⟩

/-- Settles O53. -/
theorem startLoadEndsWithFirstSample : Obligations.StartLoadEndsWithFirstSample := by
  intro s a v hm hstep hr hlen h hw hv hq hmon hi hh bs valid cfg cls
  let x : State := endedWith s.memory s.freeIndex s
  let z : State := { x with descriptor := { x.descriptor with bytes := bs } }
  let f : State := firstSampled (startApplied z)
  have hload : loadCompletion v x = finishStartLoad z := by
    rw [loadCompletion, show x.sequencer.step = _ from hstep]
    exact continueStartLoad_full (s := z) hr (by simp [z, bs, hlen])
  have hd : deliver ⟨.load, .read a, .readStrobe false⟩ (.byte v)
      (completed ⟨.load, .read a, .readStrobe false⟩ (.byte v) s) = finishStartLoad z := by
    rw [deliver_loadByte, hload]
  have hcls : sampleClass (startApplied z) = cls := rfl
  have hlast : f.engine.lastClass = cls := engineClass_lastClass cls _
  have hstate : f.monitor.state = if cls = .good then .good else .warned := by
    show (if cls = .good then s.monitor.state else .warned) = _
    rw [hmon]
  have hbit : valid = false → f.status.causes.getLsbD 7 = true := fun hval => by
    show (if valid = true then s.status.causes else s.status.causes ||| 0x80#8).getLsbD 7 = true
    rw [hval, if_neg (by decide)]
    simp
  rw [exec_loadByte h hv]
  refine ⟨_, rfl, ?_⟩
  by_cases hlow : cls = .low
  · let y : State := heldIdle { f with
      sequencer := { f.sequencer with step := .ended }
      control := { f.control with reason := .auto }
      status := { f.status with
        causes := f.status.causes ||| 0x01#8, episodes := f.status.episodes + 1#8 } }
    have htrip : finishStartLoad z = y :=
      (finishStartLoad_trips (hcls.trans hlow)).trans (takeTrip_startup (s := f) hm hi hh)
    have hentered : (f.status.causes ||| 0x01#8).getLsbD 0 = true := by simp
    rw [endAccess_reaims (hd.trans htrip) hw (by rw [hm]; exact show Mode.hold ≠ .startup by decide), hm]
    have htimer : reaim .startup (idlePort y) = { idlePort y with monitor := { y.monitor with
        timer := some ⟨s.now, max s.now (s.now + 1000)⟩ } } := rfl
    have hmem : (if cls = .low ∨ s.pins.mrdy = false then s.memory
        else memForget s.memory 0xFFF00#20) = s.memory := if_pos (.inl hlow)
    rw [htimer, Nat.max_eq_right (by omega), if_pos hlow, hmem]
    refine ⟨rfl, fun hval => ?_, hlast, rfl, rfl, hstate, rfl, rfl,
      fun hn => absurd hlow hn, fun _ => ⟨rfl, rfl, rfl, rfl, hentered, rfl, recordUnmarked_eq_false,
        rfl, rfl⟩⟩
    show (f.status.causes ||| 0x01#8).getLsbD 7 = true
    rw [BitVec.getLsbD_or, hbit hval, Bool.true_or]
  · obtain ⟨hdesc, heng, hmon', hmem, hstatus, hmode, hseq, hwriter⟩ := endAccess_startWrite_fields (f := f)
      (hd.trans (finishStartLoad_begins (by rw [hcls]; exact hlow))) hm rfl hi h hw rfl
    have hmemory : (if s.pins.mrdy then memForget s.memory 0xFFF00#20 else s.memory) =
        if cls = .low ∨ s.pins.mrdy = false then s.memory else memForget s.memory 0xFFF00#20 := by
      cases s.pins.mrdy <;> simp [hlow]
    have hsafety : monitorSafety f.monitor.state = if cls = .good then .clean else .atRisk := by
      rw [hstate]
      split <;> rfl
    have htimer : f.monitor.timer = some ⟨s.now, s.now + 125⟩ := by
      show some (⟨s.now, s.now + samplePeriod s.control.mode⟩ : SampleTimer) = _
      rw [hm]
      rfl
    rw [hdesc, heng, hmon', hstatus, if_neg hlow]
    refine ⟨rfl, hbit, hlast, rfl, rfl, hstate, htimer, hmem.trans hmemory,
      fun _ => ⟨hmode, hseq, hsafety, rfl, ?_⟩, fun hl => absurd hl hlow⟩
    rw [hdesc, hstatus] at hwriter
    exact hwriter

end Sys2Proof.Machine

/-! ## A write decided anew (R32, R124) -/

namespace Sys2Proof.Machine

open Sys2Proof

set_option Elab.async false

/-! ### The dispositions (Tables 2-2 and 2-3) -/

/-- Every write waits, is rejected, passes through, is queued, stalls or is discarded. -/
theorem decideWrite_cases (a : Addr) (b : Byte) (s : State) :
    (∃ w, decideWrite a b s = setStage (.waiting w) s) ∨ decideWrite a b s = rejectWrite s ∨
      decideWrite a b s = passThrough a b s ∨ (∃ m, decideWrite a b s = queueWrite a b m s) ∨
      (∃ k, decideWrite a b s = beginStall k s) ∨ decideWrite a b s = discardWrite s := by
  unfold decideWrite
  split
  · exact .inl ⟨_, rfl⟩
  split
  · exact .inl ⟨_, rfl⟩
  split
  · exact .inr (.inl rfl)
  split
  · unfold decideWindow
    split
    · exact .inl ⟨_, rfl⟩
    · exact .inr (.inr (.inl rfl))
    · exact .inr (.inr (.inr (.inl ⟨_, rfl⟩)))
    · exact .inr (.inr (.inr (.inl ⟨_, rfl⟩)))
    · exact .inr (.inr (.inr (.inl ⟨_, rfl⟩)))
    · exact .inl ⟨_, rfl⟩
  · unfold decideRegion
    dsimp only
    split
    · exact .inl ⟨_, rfl⟩
    · exact .inr (.inl rfl)
    · exact .inr (.inr (.inl rfl))
    · exact .inl ⟨_, rfl⟩
    · exact .inr (.inr (.inr (.inl ⟨_, rfl⟩)))
    · exact .inr (.inr (.inr (.inr (.inl ⟨_, rfl⟩))))
    · exact .inr (.inr (.inr (.inl ⟨_, rfl⟩)))
    · exact .inr (.inr (.inr (.inr (.inr rfl))))

/-! ### The access in progress stays (R117) -/

/-- The host waits on a write in progress. -/
def awaitsWrite (a : Addr) (b : Byte) (s : State) : Prop :=
  ∃ st, s.host.access = some ⟨.write a b, st, false⟩

section Awaits

variable {s : State} {a : Addr} {b : Byte} (h : awaitsWrite a b s)

include h

theorem answerHost_awaits (ans : Answer) : awaitsWrite a b (answerHost ans s) := by
  obtain ⟨st, h⟩ := h
  exact ⟨_, by rw [answerHost_waiting ans h]⟩

theorem setStage_awaits (st : Stage) : awaitsWrite a b (setStage st s) := by
  obtain ⟨st', h⟩ := h
  exact ⟨_, by rw [setStage_some st h]⟩

theorem beginStall_awaits (k : StallKind) : awaitsWrite a b (beginStall k s) := by
  unfold beginStall
  dsimp only
  split
  · exact answerHost_awaits (s := countRejected s) (by simpa [awaitsWrite] using h) _
  · exact setStage_awaits (s := { s with host := _ }) h _

theorem acceptQueued_awaits (a' : Addr) (b' : Byte) : awaitsWrite a b (acceptQueued a' b' s) := by
  have hans := answerHost_awaits (s := countDeferred s) (by simpa [awaitsWrite] using h) .done
  unfold acceptQueued
  dsimp only
  split
  · simpa [awaitsWrite] using hans
  · exact hans

theorem appendTaken_awaits (a' : Addr) (b' : Byte) : awaitsWrite a b (appendTaken a' b' s) := by
  have hwake (x : State) (hx : awaitsWrite a b x) : awaitsWrite a b (wakeEngine x) := by
    simpa [awaitsWrite] using hx
  have hfree : awaitsWrite a b s.takeFree := h
  rcases appendTaken_cases a' b' s with ⟨-, he⟩ | ⟨-, he | he⟩ <;> rw [he]
  · exact acceptQueued_awaits (hwake _ h) _ _
  · exact acceptQueued_awaits (hwake _ hfree) _ _
  · exact hwake _ (acceptQueued_awaits hfree _ _)

theorem queueWrite_awaits (a' : Addr) (b' : Byte) (m : Bool) : awaitsWrite a b (queueWrite a' b' m s) := by
  unfold queueWrite
  rcases takeIntoQueue_cases a' b' m s with ⟨q, -, he⟩ | ⟨q, -, he⟩ | ⟨-, -, he⟩ <;> rw [he]
  · exact acceptQueued_awaits (s := countMerged { s with queue := q }) h _ _
  · exact appendTaken_awaits (s := { s with queue := q }) h _ _
  · exact beginStall_awaits (s := setCause .queueFull s) h _

/-- Whatever the decision, the host waits on or holds its access (R117). -/
theorem decideWrite_awaits (a' : Addr) (b' : Byte) : awaitsWrite a b (decideWrite a' b' s) := by
  rcases decideWrite_cases a' b' s with ⟨w, he⟩ | he | he | ⟨m, he⟩ | ⟨k, he⟩ | he <;> rw [he]
  · exact setStage_awaits h _
  · exact answerHost_awaits (s := countRejected s) (by simpa [awaitsWrite] using h) _
  · have hstage := setStage_awaits h .onPort
    unfold passThrough hostRequest
    dsimp only
    split
    · exact hstage
    · simpa [awaitsWrite] using hstage
  · exact queueWrite_awaits h _ _ _
  · exact beginStall_awaits h _
  · exact answerHost_awaits (s := countDiscarded s) (by simpa [awaitsWrite] using h) _

end Awaits

/-- A write decided anew while the host waits on it: no access begins after it (R124, R120). -/
theorem decideAnew_write {s : State} {a : Addr} {b : Byte} (h : awaitsWrite a b s) :
    decideAnew s = decideWrite a b s := by
  obtain ⟨st, hacc⟩ := h
  have hroute : routeAccess s = decideWrite a b s := by
    rw [routeAccess, hacc]
  obtain ⟨st', hacc'⟩ := decideWrite_awaits ⟨st, hacc⟩ a b
  rw [decideAnew, hroute, settleHost_busy hacc']

/-! ### The applied configuration stays while a byte is not held (R157, R158) -/

/-- A reading stops at a byte that the queue does not hold. -/
theorem gatherHeld_stops {q : List Entry} {base : Addr} {k total : Nat}
    (h : overlay q (base + BitVec.ofNat 20 k) = none) (fuel : Nat) :
    ∀ bs : List Byte, bs.length ≤ k → (gatherHeld q base total fuel bs).length ≤ k := by
  induction fuel with
  | zero => exact fun bs hbs => hbs
  | succ fuel ih =>
    intro bs hbs
    rw [gatherHeld]
    split
    · split
      · next b hb =>
        have hne : bs.length ≠ k := by
          rintro rfl
          rw [h] at hb
          cases hb
        exact ih _ (by simp; omega)
      · exact hbs
    · exact hbs

/-- A generation notice applies nothing while the last byte is not held (R155, R158). -/
theorem generationNotice_applied {s : State} (b : Byte)
    (h : overlay s.queue (0xFFF20#20 + BitVec.ofNat 20 48) = none) :
    (generationNotice b s).descriptor.applied = s.descriptor.applied := by
  have hbegun : (beginReading s).descriptor.applied = s.descriptor.applied ∧
      (beginReading s).descriptor.bytes.length ≤ 48 := by
    have hshort : (gatherHeld s.queue descriptorBase descriptorLength descriptorLength []).length ≤ 48 :=
      gatherHeld_stops (base := descriptorBase) h _ [] (by simp)
    unfold beginReading advanceReading
    dsimp only
    split
    · simpa using hshort
    · exact ⟨rfl, hshort⟩
  unfold generationNotice
  split
  · rfl
  · split
    · rw [finishReading_incomplete 2 (readingComplete_short (by omega))]
      exact hbegun.1
    · rfl

/-- A write to another address leaves what the queue supplies at this one (R12). -/
theorem writeRequest_overlay_other (q : List Entry) {a a' : Addr} (b : Byte) (merge : Bool)
    (h : a' ≠ a) : overlay (writeRequest q a b merge).2 a' = overlay q a' := by
  rcases writeRequest_cases q a b merge with ⟨q', -, hi, he⟩ | ⟨-, he⟩
  · rw [he]
    exact overlay_mergeInto_other hi h
  · by_cases hl : q.length < 32
    · obtain ⟨q', merged, hreq, htakes⟩ := writeRequest_takes (a := a) (merge := merge) b (.inl hl)
      rw [hreq]
      exact htakes.2.2.2.2.1 a' h
    · rw [he, appendEntry, if_neg (by exact hl)]

section Applied

variable {s : State} {a : Addr} {b : Byte}

theorem acceptQueued_applied
    (h : a = generationAddr → overlay s.queue (0xFFF20#20 + BitVec.ofNat 20 48) = none) :
    (acceptQueued a b s).descriptor.applied = s.descriptor.applied := by
  unfold acceptQueued
  dsimp only
  split
  · next ha =>
    rw [generationNotice_applied b (by simpa using h ha)]
    simp
  · simp

theorem wakeEngine_overlay (s : State) (a' : Addr) :
    overlay (wakeEngine s).queue a' = overlay s.queue a' := by
  rcases wakeEngine_cases s with he | ⟨-, -, he⟩
  · rw [he]
  · rw [he]
    rcases claimHead_cases s with ⟨-, he⟩ | ⟨w, q, hc, he⟩
    · rw [he]
    · rw [he]
      simpa using overlay_headClaim hc a'

theorem appendTaken_applied
    (h : a = generationAddr → overlay s.queue (0xFFF20#20 + BitVec.ofNat 20 48) = none) :
    (appendTaken a b s).descriptor.applied = s.descriptor.applied := by
  have hwake (x : State) (hx : x.queue = s.queue) (ha : a = generationAddr) :
      overlay (wakeEngine x).queue (0xFFF20#20 + BitVec.ofNat 20 48) = none := by
    rw [wakeEngine_overlay, hx, h ha]
  rcases appendTaken_cases a b s with ⟨-, he⟩ | ⟨-, he | he⟩ <;> rw [he]
  · rw [acceptQueued_applied (hwake s rfl)]
    simp
  · rw [acceptQueued_applied (hwake s.takeFree rfl)]
    simp [State.takeFree]
  · simp only [wakeEngine_frame]
    exact acceptQueued_applied (s := s.takeFree) h

theorem queueWrite_applied (m : Bool) (h : overlay s.queue (0xFFF20#20 + BitVec.ofNat 20 48) = none) :
    (queueWrite a b m s).descriptor.applied = s.descriptor.applied := by
  have hq {q : List Entry} {ans : QueueAnswer} (hp : presentToQueue s.queue a b m = (ans, q))
      (ha : a = generationAddr) : overlay q (0xFFF20#20 + BitVec.ofNat 20 48) = none := by
    subst ha
    rw [presentToQueue, if_neg (by decide)] at hp
    have hother := writeRequest_overlay_other s.queue (a := generationAddr) b m
      (show 0xFFF20#20 + BitVec.ofNat 20 48 ≠ generationAddr by decide)
    rw [hp] at hother
    exact hother.trans h
  unfold queueWrite
  rcases takeIntoQueue_cases a b m s with ⟨q, hp, he⟩ | ⟨q, hp, he⟩ | ⟨-, -, he⟩ <;> rw [he]
  · exact acceptQueued_applied (s := countMerged { s with queue := q }) (hq hp)
  · exact appendTaken_applied (s := { s with queue := q }) (hq hp)
  · simp

/-- No decision of a write applies a descriptor whose last byte the queue does not hold (R157, R158). -/
theorem decideWrite_applied (h : overlay s.queue (0xFFF20#20 + BitVec.ofNat 20 48) = none) :
    (decideWrite a b s).descriptor.applied = s.descriptor.applied := by
  rcases decideWrite_cases a b s with ⟨w, he⟩ | he | he | ⟨m, he⟩ | ⟨k, he⟩ | he <;> rw [he]
  · simp
  · simp
  · simp [passThrough]
  · exact queueWrite_applied m h
  · simp
  · simp [discardWrite]

end Applied

/-! ### A write decided in ENTERING or HOLD with no entry held (Tables 2-2 and 2-3) -/

/-- A queued write is answered done, with its deferred notice, whatever its generation byte starts (R34, R44). -/
theorem acceptQueued_outcome {s : State} {a : Addr} {b : Byte} {op : BusOp} {st : Stage}
    (h : s.host.access = some ⟨op, st, false⟩) :
    (acceptQueued a b s).host = { s.host with access := some ⟨op, .answered .done, false⟩ } ∧
      (acceptQueued a b s).status.deferred = s.status.deferred + 1#16 := by
  have hans : answerHost .done (countDeferred s) = deferredDone op s :=
    answerHost_waiting .done (s := countDeferred s) h
  have hcounts := congrArg Prod.fst (generationNotice_counts b (deferredDone op s))
  unfold acceptQueued
  dsimp only
  rw [hans]
  split
  · exact ⟨by simp [deferredDone], hcounts⟩
  · exact ⟨rfl, rfl⟩

/-- The counts of a decided write's notices (R44). -/
def decisionCounts (s : State) : BitVec 16 × Byte × Byte :=
  (s.status.deferred, s.status.discarded, s.status.rejected)

/-- The decision depends on, and shows in, these fields alone. -/
theorem decidedHeld_congr {s s' t t' : State} {a : Addr} {b : Byte}
    (hs : s'.descriptor.applied = s.descriptor.applied ∧ decisionCounts s' = decisionCounts s)
    (ht : t'.queue = t.queue ∧ t'.host = t.host ∧ t'.status = t.status ∧ t'.now = t.now)
    (h : decidedHeld s t a b) : decidedHeld s' t' a b := by
  obtain ⟨happ, hcounts⟩ := hs
  obtain ⟨hq, hh, htst, hn⟩ := ht
  simp only [decisionCounts, Prod.mk.injEq] at hcounts
  obtain ⟨hdef, hdis, hrej⟩ := hcounts
  unfold decidedHeld at h ⊢
  unfold State.config rejectedStatus at h ⊢
  dsimp only at h ⊢
  rwa [happ, hdef, hdis, hrej, hq, hh, htst, hn]

section Held

variable {s : State} {a : Addr} {b : Byte}

/-- A region of another policy is not the control window (R31). -/
theorem notWindow_of_policy {p : Policy} (hne : p ≠ .defer)
    (h : (if inWindow a then .defer else (s.config.lookup (lineOf a)).1) = p) :
    inWindow a = false ∧ (s.config.lookup (lineOf a)).1 = p := by
  cases hw : inWindow a with
  | true => rw [hw] at h; exact absurd h.symm hne
  | false => rw [hw] at h; exact ⟨rfl, h⟩

variable (hm : s.control.mode = .entering ∨ s.control.mode = .hold) (hr : s.descriptor.reading = false)

include hm hr

/-- A write to be queued, with no entry held, is appended (R8, R34). -/
theorem decideWrite_heldDefer (hl : inStatusLine a = false) (hq : s.queue = [])
    (he : s.engine.state = .stopped)
    (hp : (if inWindow a then .defer else (s.config.lookup (lineOf a)).1) = Policy.defer) :
    decideWrite a b s = acceptQueued a b { s with queue := [⟨newEntry a b, .pending⟩] } := by
  have hqm : queueingMode s.control.mode = true := by rcases hm with hm | hm <;> rw [hm] <;> rfl
  have hqu : queuesIn s a := by
    cases hw : inWindow a with
    | true => exact .inl ⟨hw, hl⟩
    | false => rw [hw] at hp; exact .inr ⟨hw, .inl hp⟩
  rw [decideWrite_queues b hqm hr hqu, queueWrite, takeIntoQueue, hq, presentToQueue_empty]
  exact appendTaken_resting (s := { s with queue := [⟨newEntry a b, .pending⟩] })
    (show s.engine.state ≠ .emptyWait by rw [he]; decide)

theorem decideWrite_heldDiscard
    (hp : (if inWindow a then .defer else (s.config.lookup (lineOf a)).1) = Policy.discard) :
    decideWrite a b s = discardWrite s := by
  obtain ⟨hw, hpol⟩ := notWindow_of_policy (by decide) hp
  exact decideWrite_discard b hm hr hw hpol

theorem decideWrite_heldBlock
    (hp : (if inWindow a then .defer else (s.config.lookup (lineOf a)).1) = Policy.block) :
    decideWrite a b s = beginStall .block s := by
  have hqm : queueingMode s.control.mode = true := by rcases hm with hm | hm <;> rw [hm] <;> rfl
  obtain ⟨hw, hpol⟩ := notWindow_of_policy (by decide) hp
  exact decideWrite_block b hqm hr hw hpol

/-- What the decision leaves, with no entry held. -/
theorem decideWrite_held (hl : inStatusLine a = false) (hacc : awaitsWrite a b s) (hq : s.queue = [])
    (he : s.engine.state = .stopped) : decidedHeld s (decideWrite a b s) a b := by
  obtain ⟨st, hacc⟩ := hacc
  refine ⟨fun hp => ?_, fun hp => ?_, fun hp => ?_⟩
  · obtain ⟨hh, hd⟩ := acceptQueued_outcome (a := a) (b := b)
      (s := { s with queue := [⟨newEntry a b, .pending⟩] }) hacc
    rw [decideWrite_heldDefer hm hr hl hq he hp]
    exact ⟨by simp only [acceptQueued_frame]; rfl, by rw [hh], hd⟩
  · rw [decideWrite_heldDiscard hm hr hp, discardWrite_waiting hacc]
    exact ⟨hq, rfl, rfl⟩
  · rw [decideWrite_heldBlock hm hr hp]
    refine ⟨by simpa using hq, fun hlim => ?_, fun hlim => ?_⟩
    · rw [beginStall_stalls hacc _ hlim]
      exact ⟨rfl, rfl⟩
    · rw [beginStall_rejects hacc _ hlim]
      exact ⟨rfl, rfl⟩

end Held

end Sys2Proof.Machine

/-! ## The readings of a reload (9.4, 9.5) -/

namespace Sys2Proof.Machine

open Sys2Proof

set_option Elab.async false

/-- The only request that waits after the delivery is granted as on a quiet port (R106). -/
theorem endAccess_quietGrant {s u : State} {acc : PortAccess} {c : Completion} {r : Requester}
    {op : BusOp} (hd : deliver acc c (completed acc c s) = u)
    (hw : u.port.waiting = (⟨none, none, none, none⟩ : Waiting).put r (some op))
    (hm : u.control.mode = s.control.mode) (hg : gateOpen u.control.mode r op = true) :
    endAccess acc c s = { u with
      port := quietGrant u r op (markerAfter u.port.marker r), memory := grantMemory u op } := by
  have hput : u.port.waiting.put r none = ⟨none, none, none, none⟩ := by
    rw [hw]
    cases r <;> rfl
  rw [endAccess_grants hd hw hm hg, grant_eq, show (idlePort u).port.waiting.put r none = _ from hput]
  rfl

/-- A request of the access in progress, while another has the port, waits (R104). -/
theorem hostRequest_busy {s : State} {op op' : BusOp} {st : Stage} {acc : PortAccess}
    (ho : s.host.orphan = false) (hacc : s.host.access = some ⟨op', st, false⟩)
    (hp : s.port.access = some acc) : hostRequest op s = { s with
      host := hostAt s.host op' .onPort
      port := { s.port with waiting := s.port.waiting.put .host (some op) } } := by
  unfold hostRequest
  dsimp only
  rw [setStage_some .onPort hacc, if_neg (by simp [ho])]
  exact portRequest_busy .host op hp

/-! ### One byte of a reload -/

/-- A LOAD byte of a reload is taken and the reading goes on (R157). -/
theorem loadCompletion_reload {s : State} (v : Byte) (hs : s.sequencer.step = .ended)
    (hr : s.descriptor.reading = true) : loadCompletion v s =
      hostReloadEnded (finishReading 2 (advanceReading (readingAt (s.descriptor.bytes ++ [v]) s))) := by
  rw [loadCompletion, hs]
  dsimp only
  rw [if_pos hr, reloadByte, readingAt, ← hr]

/-- While a reading goes on a write in a RELOAD wait stays (R124). -/
theorem hostReloadEnded_reading {s : State} (h : s.descriptor.reading = true) :
    hostReloadEnded s = s := by
  unfold hostReloadEnded
  split
  · rw [if_pos h]
  · rfl

theorem hostReloadEnded_none {s : State} (h : s.host.access = none) : hostReloadEnded s = s := by
  unfold hostReloadEnded
  rw [h]

/-- At the end of a reload a write in a RELOAD wait is decided anew (R124). -/
theorem hostReloadEnded_decides {s : State} {a : Addr} {b : Byte}
    (h : s.host.access = some ⟨.write a b, .waiting .reload, false⟩)
    (hr : s.descriptor.reading = false) : hostReloadEnded s = decideWrite a b s := by
  unfold hostReloadEnded
  rw [h]
  dsimp only
  rw [if_neg (by simp [hr]), decideAnew_write ⟨_, h⟩]

/-- The applied generation after the judgement of a reload's bytes (R158, R159). -/
def judgedGeneration (s : State) : Byte :=
  if descriptorValid s.descriptor.bytes then s.descriptor.bytes.getD 2 0#8
  else s.descriptor.generation

theorem judgeDescriptor_generation (s : State) :
    (judgeDescriptor s).descriptor.generation = judgedGeneration s := by
  unfold judgeDescriptor judgedGeneration
  split <;> rfl

/-- The state with the bytes judged and the unit IDLE (R158, R159). -/
theorem readingEnded_eq (s : State) : readingEnded s = { s with
    monitor := if descriptorValid s.descriptor.bytes then
      { s.monitor with warnRun := 0, recoveryRun := 0 } else s.monitor
    status := if descriptorValid s.descriptor.bytes then s.status
      else { s.status with causes := s.status.causes ||| 0x80#8 }
    descriptor := ⟨if descriptorValid s.descriptor.bytes then some (descriptorConfig s.descriptor.bytes)
        else s.descriptor.applied, judgedGeneration s, false, s.descriptor.bytes, none⟩ } := by
  unfold readingEnded judgeDescriptor judgedGeneration
  split <;> rfl

/-- Before the forty-ninth byte the next LOAD read is made (R157). -/
theorem loadCompletion_next {s : State} {v : Byte} {acc : PortAccess} (hs : s.sequencer.step = .ended)
    (hr : s.descriptor.reading = true) (hl : s.descriptor.bytes.length < 48)
    (hmiss : overlay s.queue
      (0xFFF20#20 + BitVec.ofNat 20 (s.descriptor.bytes ++ [v]).length) = none)
    (hp : s.port.access = some acc) : loadCompletion v s = { s with
      descriptor := { s.descriptor with bytes := s.descriptor.bytes ++ [v] }
      port := { s.port with
        waiting := s.port.waiting.put .load
          (some (.read (0xFFF20#20 + BitVec.ofNat 20 (s.descriptor.bytes ++ [v]).length))) } } := by
  let y : State := { s with descriptor := { s.descriptor with bytes := s.descriptor.bytes ++ [v] } }
  have hy : readingAt (s.descriptor.bytes ++ [v]) s = y := by
    rw [readingAt, ← hr]
  have hlen : y.descriptor.bytes.length < 49 := by simp [y]; omega
  rw [loadCompletion_reload v hs hr, hy, advanceReading_missed (s := y) hlen hmiss,
    portRequest_busy (s := y) _ _ hp,
    finishReading_incomplete _ (readingComplete_short (by exact hlen))]
  exact hostReloadEnded_reading (by exact hr)

section Full

variable {s : State} {v : Byte} (hs : s.sequencer.step = .ended) (hr : s.descriptor.reading = true)
  (hl : s.descriptor.bytes.length = 48)

include hs hr hl

/-- The forty-ninth byte, with no held notice that differs: the reload ends (R156, R158, R159). -/
theorem loadCompletion_ends (h : s.descriptor.held = none ∨
      s.descriptor.held = some (judgedGeneration (readingAt (s.descriptor.bytes ++ [v]) s))) :
    loadCompletion v s =
      hostReloadEnded (readingEnded (readingAt (s.descriptor.bytes ++ [v]) s)) := by
  have hfull : (readingAt (s.descriptor.bytes ++ [v]) s).descriptor.bytes.length = 49 := by
    simp [readingAt, hl]
  rw [loadCompletion_reload v hs hr, advanceReading_full hfull,
    finishReading_ends 1 ((readingComplete_iff _).2 ⟨rfl, hfull⟩)]
  rw [judgeDescriptor_generation]
  exact h

/-- The forty-ninth byte, with a held notice that differs: a new reload begins (R156). -/
theorem loadCompletion_again {b : Byte} {acc : PortAccess} (hb : s.descriptor.held = some b)
    (hne : b ≠ judgedGeneration (readingAt (s.descriptor.bytes ++ [v]) s))
    (hmiss : overlay s.queue 0xFFF20#20 = none) (hp : s.port.access = some acc) :
    loadCompletion v s =
      { readingBegun (readingEnded (readingAt (s.descriptor.bytes ++ [v]) s)) with
        port := { s.port with waiting := s.port.waiting.put .load (some (.read 0xFFF20#20)) } } := by
  let y : State := readingAt (s.descriptor.bytes ++ [v]) s
  have hfull : y.descriptor.bytes.length = 49 := by simp [y, readingAt, hl]
  let z : State := { readingBegun (readingEnded y) with
    port := { s.port with waiting := s.port.waiting.put .load (some (.read 0xFFF20#20)) } }
  have hbegin : beginReading (readingEnded y) = z := by
    have hq : overlay (readingEnded y).queue 0xFFF20#20 = none := by
      rw [readingEnded_eq]
      exact hmiss
    have hport : (readingBegun (readingEnded y)).port = s.port := by
      rw [readingEnded_eq]
      rfl
    rw [beginReading_missed hq, portRequest_busy (acc := acc) _ _ (by rw [hport]; exact hp), hport]
  rw [loadCompletion_reload v hs hr, advanceReading_full hfull,
    finishReading_again 1 ((readingComplete_iff _).2 ⟨rfl, hfull⟩) hb
      (by rw [judgeDescriptor_generation]; exact hne), hbegin,
    finishReading_incomplete (s := z) 1 (readingComplete_short (show 0 < 49 by decide))]
  exact hostReloadEnded_reading (s := z) rfl

end Full

/-- Settles O54. -/
theorem reloadEndsWithConfiguration : Obligations.ReloadEndsWithConfiguration := by
  intro s a v hstep hr h hw hv bs valid gen reads judged applied ends
  let x : State := endedWith s.memory s.freeIndex s
  have hd {u : State} (hu : loadCompletion v x = u) :
      deliver ⟨.load, .read a, .readStrobe false⟩ (.byte v)
        (completed ⟨.load, .read a, .readStrobe false⟩ (.byte v) s) = u := by
    rw [deliver_loadByte, hu]
  have hput (op : BusOp) : x.port.waiting.put .load (some op) =
      (⟨none, none, none, none⟩ : Waiting).put .load (some op) := by
    show s.port.waiting.put .load (some op) = _
    rw [hw]
  rw [exec_loadByte h hv]
  refine ⟨fun hl hmiss => ?_, fun hl he hh => ?_, fun hl he hmiss => ?_, ?_⟩
  · have hnext := loadCompletion_next (s := x) (v := v) hstep hr hl hmiss h
    rw [endAccess_quietGrant (hd hnext) (hput _) rfl rfl]
    rfl
  · have hends := (loadCompletion_ends (s := x) (v := v) hstep hr hl he).trans
      (hostReloadEnded_none (by rw [readingEnded_eq]; exact hh))
    rw [readingEnded_eq] at hends
    rw [endAccess_quiet (hd hends) hw rfl rfl]
    rfl
  · obtain ⟨b, hb, hne⟩ : ∃ b, s.descriptor.held = some b ∧ b ≠ gen := by
      cases hheld : s.descriptor.held with
      | none => exact absurd (.inl hheld) he
      | some b => exact ⟨b, rfl, fun hbg => he (.inr (by rw [hheld, hbg]))⟩
    have hagain := loadCompletion_again (s := x) (v := v) hstep hr hl hb hne hmiss h
    rw [readingEnded_eq] at hagain
    rw [endAccess_quietGrant (hd hagain) (hput _) rfl rfl]
    rfl
  · intro hl he a' b p hacc hline ho hlast hp
    let y : State := { judged with
      port := { s.port with timeout := none }, descriptor := ⟨applied, gen, false, bs, none⟩ }
    have hends : loadCompletion v x = hostReloadEnded y :=
      (loadCompletion_ends (s := x) (v := v) hstep hr hl he).trans
        (congrArg hostReloadEnded (readingEnded_eq _))
    have hdel := hd (hends.trans (hostReloadEnded_decides (s := y) hacc rfl))
    obtain ⟨hth, htq, -, -, hts, -, htd, -, htn⟩ := endAccess_delivered hdel
    have happlied : (decideWrite a' b y).descriptor.applied = applied :=
      decideWrite_applied (s := y) (by rw [← hl]; exact hlast)
    have hnot (hpr : p ≠ .readonly) :
        inWindow a' = true ∨ (y.config.lookup (lineOf a')).1 ≠ .readonly := by
      cases hwin : inWindow a' with
      | true => exact .inl rfl
      | false => rw [hwin] at hp; exact .inr fun hc => hpr (hp.trans hc)
    refine ⟨_, rfl, by rw [htd, happlied], fun hm hpr => ?_, fun hm hpr => ?_, fun hm hpr => ?_,
      fun hm hq heng hpr => ?_⟩
    · obtain ⟨hwin, hpol⟩ := notWindow_of_policy (s := y) (by decide) (hp.symm.trans hpr)
      rw [hth, hts, decideWrite_readonly (s := y) b hm rfl hwin hpol, rejectWrite_waiting (s := y) hacc]
      exact ⟨rfl, rfl⟩
    · have hroute : decideWrite a' b y = hostRequest (.write a' b) y :=
        decideWrite_normal (s := y) b hm rfl (by
          cases hwin : inWindow a' with
          | true => exact .inr ⟨rfl, hline⟩
          | false => exact .inl ⟨rfl, (hnot hpr).resolve_left (by simp [hwin])⟩)
      have hpass := hostRequest_busy (s := y) (op := .write a' b) ho hacc h
      have haccess := endAccess_access (r := .host) (op := .write a' b)
        (hdel.trans (hroute.trans hpass))
        (by show s.port.waiting.put .host (some (.write a' b)) = _; rw [hw])
        (by show gateOpen s.control.mode _ _ = true; rw [hm]; rfl)
      rw [hth, hroute, hpass]
      exact ⟨rfl, haccess⟩
    · rw [hth, decideWrite_closing (s := y) b hm rfl hline (hnot hpr), setStage_some (s := y) _ hacc]
      rfl
    · have hheld := decideWrite_held (s := y) hm rfl hline ⟨_, hacc⟩ hq heng
      refine decidedHeld_congr (s := y) ⟨?_, rfl⟩ ⟨htq, hth, hts, htn⟩ hheld
      rw [htd, happlied]

end Sys2Proof.Machine

/-! ## Changes of mode and the host's write (R38, R39, R42, R169) -/

namespace Sys2Proof.Machine

open Sys2Proof

set_option Elab.async false

/-! ### The HOST side of the memory port (R105, R108) -/

/-- No HOST request waits, and none has been granted since `s`. -/
def hostUnasked (s t : State) : Prop :=
  t.port.waiting.host = none ∧
    ∀ op ph, t.port.access = some ⟨.host, op, ph⟩ → s.port.access = some ⟨.host, op, ph⟩

section Unasked

variable {s t u : State}

theorem hostUnasked_congr (hp : u.port = t.port) (h : hostUnasked s t) : hostUnasked s u := by
  rwa [hostUnasked, hp]

theorem hostUnasked_decideGrant (h : hostUnasked s t) : hostUnasked s (decideGrant t) := by
  rcases decideGrant_cases t with he | ⟨r, op, -, hw, -, he⟩ <;> rw [he]
  · exact h
  · have hr : r ≠ .host := by
      rintro rfl
      rw [show t.port.waiting.get .host = t.port.waiting.host from rfl, h.1] at hw
      cases hw
    rw [grant_eq]
    refine ⟨?_, fun op' ph' hacc => ?_⟩
    · show (t.port.waiting.put r none).host = none
      cases r with
      | host => exact absurd rfl hr
      | _ => exact h.1
    · cases hacc
      exact absurd rfl hr

theorem hostUnasked_portRequest {r : Requester} (op : BusOp) (hr : r ≠ .host) (h : hostUnasked s t) :
    hostUnasked s (portRequest r op t) := by
  refine hostUnasked_decideGrant ⟨?_, h.2⟩
  show (t.port.waiting.put r (some op)).host = none
  cases r with
  | host => exact absurd rfl hr
  | _ => exact h.1

theorem hostUnasked_beginReading (h : hostUnasked s t) : hostUnasked s (beginReading t) := by
  unfold beginReading advanceReading
  dsimp only
  split
  · exact hostUnasked_portRequest _ (by decide) h
  · exact h

theorem hostUnasked_readingEnded (h : hostUnasked s t) : hostUnasked s (readingEnded t) := by
  rw [readingEnded_eq]
  exact h

theorem hostUnasked_finishReading (n : Nat) : ∀ t, hostUnasked s t → hostUnasked s (finishReading n t) := by
  induction n with
  | zero => exact fun _ h => h
  | succ n ih =>
    intro t h
    by_cases hc : readingComplete t = true
    · cases hh : t.descriptor.held with
      | none =>
        rw [finishReading_ends n hc (.inl hh)]
        exact hostUnasked_readingEnded h
      | some b =>
        by_cases hb : b = (judgeDescriptor t).descriptor.generation
        · rw [finishReading_ends n hc (.inr (by rw [hh, hb]))]
          exact hostUnasked_readingEnded h
        · rw [finishReading_again n hc hh hb]
          exact ih _ (hostUnasked_beginReading (hostUnasked_readingEnded h))
    · rw [finishReading_incomplete _ (by simpa using hc)]
      exact h

theorem hostUnasked_acceptQueued (a : Addr) (b : Byte) (h : hostUnasked s t) :
    hostUnasked s (acceptQueued a b t) := by
  have hans : hostUnasked s (answerHost .done (countDeferred t)) := hostUnasked_congr (by simp) h
  unfold acceptQueued generationNotice
  dsimp only
  split
  · split
    · exact hans
    · split
      · exact hostUnasked_finishReading 2 _ (hostUnasked_beginReading hans)
      · exact hans
  · exact hans

end Unasked

/-- A write decided in ENTERING or HOLD makes no HOST request (R108, Tables 2-2 and 2-3). -/
theorem hostUnasked_decideWrite {s t : State} {a : Addr} {b : Byte}
    (hm : t.control.mode = .entering ∨ t.control.mode = .hold) (hr : t.descriptor.reading = false)
    (hl : inStatusLine a = false) (hq : t.queue = []) (he : t.engine.state = .stopped)
    (h : hostUnasked s t) : hostUnasked s (decideWrite a b t) := by
  cases hp : (if inWindow a then .defer else (t.config.lookup (lineOf a)).1 : Policy) with
  | defer =>
    rw [decideWrite_heldDefer hm hr hl hq he hp]
    exact hostUnasked_acceptQueued a b h
  | discard =>
    rw [decideWrite_heldDiscard hm hr hp]
    exact hostUnasked_congr (by simp [discardWrite]) h
  | block =>
    rw [decideWrite_heldBlock hm hr hp]
    exact hostUnasked_congr (by simp) h
  | readonly =>
    obtain ⟨hw, hpol⟩ := notWindow_of_policy (by decide) hp
    rw [decideWrite_readonly b (by rcases hm with hm | hm <;> rw [hm] <;> decide) hr hw hpol]
    exact hostUnasked_congr (by simp) h

/-! ### Entries to ENTERING and HOLD with a write waiting (R38, R39) -/

/-- The state `z` in which an entry to ENTERING or HOLD from `s` has the access in progress decided anew,
as far as the decision depends on it. -/
structure HeldEntry (s z : State) (m : Mode) : Prop where
  mode : z.control.mode = m
  queueing : m = .entering ∨ m = .hold
  queue : z.queue = []
  engine : z.engine.state = .stopped
  descriptor : z.descriptor = s.descriptor
  counts : decisionCounts z = decisionCounts s
  host : z.host = s.host
  waiting : z.port.waiting.host = s.port.waiting.host
  granted : ∀ op ph, z.port.access = some ⟨.host, op, ph⟩ → s.port.access = some ⟨.host, op, ph⟩

section Entry

variable {s z : State} {m : Mode} {a : Addr} {b : Byte} {st : Stage} (hz : HeldEntry s z m)
  (hr : s.descriptor.reading = false) (hl : inStatusLine a = false)
  (hacc : s.host.access = some ⟨.write a b, st, false⟩)

include hz hr hl hacc

/-- A write in a CLOSING wait is decided anew, and an ungranted pass-through write is withdrawn first
(R38, R39). -/
theorem hostModeChanged_heldEntry
    (hst : st = .waiting .closing ∨ st = .onPort ∧ s.port.waiting.host = some (.write a b)) :
    decidedHeld s (hostModeChanged z) a b ∧
      (st = .onPort → hostUnasked s (hostModeChanged z)) := by
  have hzacc : z.host.access = some ⟨.write a b, st, false⟩ := by rw [hz.host, hacc]
  have hzr : z.descriptor.reading = false := by rw [hz.descriptor, hr]
  have hzm : z.control.mode = .entering ∨ z.control.mode = .hold := by rw [hz.mode]; exact hz.queueing
  have hcong : s.descriptor.applied = z.descriptor.applied ∧ decisionCounts s = decisionCounts z :=
    ⟨by rw [hz.descriptor], hz.counts.symm⟩
  rcases hst with rfl | ⟨rfl, hwait⟩
  · have hne : z.control.mode ≠ .closing := by rcases hzm with h | h <;> rw [h] <;> decide
    have hdec : hostModeChanged z = decideWrite a b z := by
      rw [hostModeChanged, hzacc]
      dsimp only
      rw [if_pos hne, decideAnew_write ⟨_, hzacc⟩]
    rw [hdec]
    exact ⟨decidedHeld_congr hcong ⟨rfl, rfl, rfl, rfl⟩
      (decideWrite_held hzm hzr hl ⟨_, hzacc⟩ hz.queue hz.engine), fun h => by cases h⟩
  · have hne : z.control.mode ≠ .normal := by rcases hzm with h | h <;> rw [h] <;> decide
    have hung : hostUngranted z = true := by
      rw [hostUngranted, show z.port.waiting.get .host = _ from hz.waiting.trans hwait]
      rfl
    let w : State := portWithdraw .host z
    have hdec : hostModeChanged z = decideWrite a b w := by
      rw [hostModeChanged, hzacc]
      dsimp only
      rw [if_pos ⟨hne, hung⟩]
      exact decideAnew_write (s := w) ⟨_, hzacc⟩
    rw [hdec]
    exact ⟨decidedHeld_congr (s := w) hcong ⟨rfl, rfl, rfl, rfl⟩
      (decideWrite_held (s := w) hzm hzr hl ⟨_, hzacc⟩ hz.queue hz.engine),
      fun _ => hostUnasked_decideWrite (t := w) hzm hzr hl hz.queue hz.engine ⟨rfl, hz.granted⟩⟩

end Entry

/-- A status write's request in ENTERING grants no HOST write (R108, R112). -/
theorem requestStatusWrite_hostPort {y : State} {a : Addr} {b : Byte}
    (hm : y.control.mode = .entering) (hw : y.port.waiting.host = some (.write a b)) :
    (requestStatusWrite y).port.waiting.host = some (.write a b) ∧
      ∀ op ph, (requestStatusWrite y).port.access = some ⟨.host, op, ph⟩ →
        y.port.access = some ⟨.host, op, ph⟩ := by
  rcases requestStatusWrite_cases y with ⟨-, he⟩ | ⟨-, -, he⟩ | ⟨-, -, he⟩ <;> rw [he]
  · exact ⟨hw, fun _ _ h => h⟩
  · unfold beginStatusWrite portRequest
    dsimp only
    generalize hv : ({ reportBegun _ with port := _ } : State) = v
    have hvm : v.control.mode = .entering := by rw [← hv]; exact hm
    have hvp : v.port.access = y.port.access ∧ v.port.waiting.host = some (.write a b) := by
      rw [← hv]; exact ⟨rfl, hw⟩
    rcases decideGrant_cases v with he | ⟨r, op, -, hwr, hg, he⟩ <;> rw [he]
    · exact ⟨hvp.2, fun _ _ h => hvp.1 ▸ h⟩
    · have hrs : r ≠ .host := by
        rintro rfl
        rw [show v.port.waiting.get .host = _ from hvp.2] at hwr
        cases hwr
        rw [hvm] at hg
        cases hg
      rw [grant_eq]
      refine ⟨?_, fun op' ph' hacc => ?_⟩
      · show (v.port.waiting.put r none).host = _
        cases r with
        | host => exact absurd rfl hrs
        | _ => exact hvp.2
      · cases hacc
        exact absurd rfl hrs
  · exact ⟨hw, fun _ _ h => h⟩

/-- An abandonment leaves the HOST side of the port (R145). -/
theorem abandonStatusWrite_hostPort (s : State) :
    (abandonStatusWrite s).port.waiting.host = s.port.waiting.host ∧
      (abandonStatusWrite s).port.access = s.port.access := by
  unfold abandonStatusWrite
  split
  · exact ⟨rfl, rfl⟩
  · split <;> exact ⟨rfl, rfl⟩

theorem hostUnasked_afterEvent {s t : State} (before : Mode) (h : hostUnasked s t) :
    hostUnasked s (afterEvent before t) := by
  unfold afterEvent
  split
  · exact h
  · exact hostUnasked_decideGrant (hostUnasked_congr (by simp) h)

section Enters

variable {s z : State} {m : Mode} {a : Addr} {b : Byte} {st : Stage}
  (hr : s.descriptor.reading = false) (hl : inStatusLine a = false)
  (hacc : s.host.access = some ⟨.write a b, st, false⟩)
  (hst : st = .waiting .closing ∨ st = .onPort ∧ s.port.waiting.host = some (.write a b))

include hr hl hacc hst

/-- The end of an event that enters ENTERING or HOLD changes neither the decision nor the HOST side of the
port (R38, R39, R71, R106). -/
theorem afterEvent_heldEntry (hz : HeldEntry s z m) (before : Mode) :
    (afterEvent before (hostModeChanged z)).control.mode = m ∧
      (st = .onPort → hostUnasked s (afterEvent before (hostModeChanged z))) ∧
      decidedHeld s (afterEvent before (hostModeChanged z)) a b := by
  obtain ⟨hdec, hport⟩ := hostModeChanged_heldEntry hz hr hl hacc hst
  refine ⟨?_, fun h => hostUnasked_afterEvent before (hport h), ?_⟩
  · rw [(afterEvent_frame before _).2.2.2.2.2.1, (hostModeChanged_frame z).2.2.2.1]
    exact hz.mode
  · exact decidedHeld_congr ⟨rfl, rfl⟩ (by simp) hdec

end Enters

/-- The entry to HOLD from a mode other than DRAIN (R51). -/
theorem heldEntry_hold {s x : State} (hne : x.control.mode ≠ .drain) (hq : x.queue = [])
    (he : x.engine.state = .stopped) (hd : x.descriptor = s.descriptor)
    (hc : decisionCounts x = decisionCounts s) (hh : x.host = s.host) (hp : x.port = s.port) :
    HeldEntry s (holdEntered x) .hold := by
  let v : State := awaitNone (setSafety .held (setMode .hold x))
  have hv : holdEntered x = determineUnmarked (abandonStatusWrite v) := if_neg hne
  have hport := abandonStatusWrite_hostPort v
  rw [hv]
  exact {
    mode := by simp [v]
    queueing := .inr rfl
    queue := by simpa [v] using hq
    engine := by simpa [v] using he
    descriptor := by simpa [v] using hd
    counts := by simpa [v, decisionCounts, setSafety] using hc
    host := by simpa [v] using hh
    waiting := by
      rw [(determineUnmarked_frame _).2.2.2.2.2.2.2.2.2.1, hport.1]
      exact congrArg (fun p : MemoryPort => p.waiting.host) hp
    granted := by
      rw [(determineUnmarked_frame _).2.2.2.2.2.2.2.2.2.1, hport.2]
      exact fun _ _ h => (congrArg MemoryPort.access hp) ▸ h }

/-- The entry to ENTERING, its status write requested (R54). -/
theorem heldEntry_entering {s y : State} {a : Addr} {b : Byte} (hm : y.control.mode = .entering)
    (hq : y.queue = []) (he : y.engine.state = .stopped) (hd : y.descriptor = s.descriptor)
    (hc : decisionCounts y = decisionCounts s) (hh : y.host = s.host) (hp : y.port = s.port)
    (hw : s.port.waiting.host = some (.write a b)) :
    HeldEntry s (requestStatusWrite y) .entering := by
  have hport := requestStatusWrite_hostPort hm ((congrArg (·.waiting.host) hp).trans hw)
  exact {
    mode := by simpa using hm
    queueing := .inl rfl
    queue := by simpa using hq
    engine := by rw [requestStatusWrite_engine_state, he]
    descriptor := by simpa using hd
    counts := by simpa [decisionCounts] using hc
    host := by simpa using hh
    waiting := hport.1.trans hw.symm
    granted := fun op ph h => (congrArg MemoryPort.access hp) ▸ hport.2 op ph h }

/-! ### The three changes of mode of O35 -/

/-- A rising HREQ edge or a LOW sample has the waiting or ungranted write decided anew (R38, R39). -/
theorem entry_decidesWrite {s : State} {a : Addr} {b : Byte} {st : Stage} {c : Instr} {m : Mode}
    (hpor : s.porAsserted = false) (hq : s.queue = []) (he : s.engine.state = .stopped)
    (hc : c = .hreqRising ∧ m = (if s.control.mode = .normal then .entering else .hold) ∨
      ∃ vsen, c = .sample vsen ∧ vsen < 2700 ∧ s.monitor.timer ≠ none ∧ m = .hold)
    (hst : s.control.mode = .closing ∧ st = .waiting .closing ∨
      s.control.mode = .normal ∧ st = .onPort ∧ s.port.waiting.host = some (.write a b)) :
    ∃ z, HeldEntry s z m ∧ exec c s = .next (afterEvent s.control.mode (hostModeChanged z)) := by
  rcases hc with ⟨rfl, rfl⟩ | ⟨vsen, rfl, hv, htimer, rfl⟩
  · rw [exec_hreqRising hpor]
    rcases hst with ⟨hm, -⟩ | ⟨hm, -, hw⟩
    · let p : State := { s with pins := { s.pins with hreq := true } }
      let x : State := beginEpisode .forced { p with control := { p.control with hreq := true } }
      rw [if_neg (by rw [hm]; decide), takeHreqRising_reenters (s := p) (.inr hm)]
      exact ⟨holdEntered x, heldEntry_hold (by rw [show x.control.mode = _ from hm]; decide)
        hq he rfl rfl rfl rfl, rfl⟩
    · let y : State := awaitWrite .held (setSafety .held (setMode .entering (beginEpisode .forced
        { s with pins := { s.pins with hreq := true }, control := { s.control with hreq := true } })))
      have htake : takeHreqRising { s with pins := { s.pins with hreq := true } } =
          hostModeChanged (requestStatusWrite y) := by
        unfold takeHreqRising
        rw [show ({ s with pins := { s.pins with hreq := true } } : State).control.mode = _ from hm]
        rfl
      rw [if_pos hm, htake]
      exact ⟨_, heldEntry_entering (y := y) rfl hq he rfl rfl rfl rfl hw, rfl⟩
  · obtain ⟨timer, htimer⟩ := Option.ne_none_iff_exists'.1 htimer
    have hm : s.control.mode ≠ .hold ∧ s.control.mode ≠ .entering ∧ s.control.mode ≠ .drain := by
      rcases hst with ⟨h, -⟩ | ⟨h, -⟩ <;> rw [h] <;> decide
    let u : State := measured vsen timer.due s
    have hum : u.control.mode = s.control.mode := by simp [u]
    obtain ⟨q, hq'⟩ := takeTrip_begins (s := u) (by rw [hum]; exact hm.1) (by rw [hum]; exact hm.2.1)
    rw [exec_sample vsen htimer, takeSupplyEvent_low s _ hv, hq']
    refine ⟨holdEntered (beginEpisode .auto { u with sequencer := q }), ?_, rfl⟩
    have hue : u.engine.state = s.engine.state := by
      rw [measured_engine]
      split <;> rfl
    refine heldEntry_hold ?_ ?_ (hue.trans he) ?_ ?_ ?_ ?_
    · exact fun h => hm.2.2 (hum.symm.trans h)
    · exact ((measured_frame ..).2.1).trans hq
    · exact (measured_frame vsen timer.due s).2.2.2.2.2.2.1
    · show (u.status.deferred, u.status.discarded, u.status.rejected) = _
      rw [(measured_frame vsen timer.due s).2.2.2.2.1]
      rfl
    · exact (measured_frame vsen timer.due s).1
    · exact (measured_frame vsen timer.due s).2.2.2.1

/-- The end of a status write in its busy watch, done or faulted (R144, R149). -/
theorem exec_watchedEnd {s : State} {op : BusOp} {n : Offset} {fault : Bool}
    (h : s.port.access = some ⟨.status, op, .busyWatch⟩) (ht : s.port.timeout ≠ none ∨ fault = false)
    (hw : s.writer.state = .writing n) (ha : s.writer.abandoned = false)
    (hn : fault = false → n = 15#4) :
    ∃ p now m k x, exec (if fault then .writeTimeout else .mrdyReady) s =
        .next (endAccess ⟨.status, op, .busyWatch⟩ (if fault then .fault else .done) x) ∧
      deliver ⟨.status, op, .busyWatch⟩ (if fault then .fault else .done)
        (completed ⟨.status, op, .busyWatch⟩ (if fault then .fault else .done) x) =
        recordedEnds (writeRecorded fault (atEnd p now m k s)) := by
  cases op with
  | write a b =>
    obtain ⟨p, now, m, k, x, hexec, -, -, hd⟩ := exec_statusEnd h rfl (.inl rfl) ht hw ha hn
    exact ⟨p, now, m, k, x, hexec, hd⟩
  | read a =>
    cases fault with
    | false =>
      exact ⟨_, _, _, _, _, exec_mrdyReady_busyWatch h, statusCompletion_done
        (s := atEnd { s.pins with mrdy := true } s.now s.memory s.freeIndex s) hw (hn rfl) ha⟩
    | true =>
      obtain ⟨due, ht⟩ := Option.ne_none_iff_exists'.1 (ht.resolve_right Bool.noConfusion)
      exact ⟨_, _, _, _, _, exec_writeTimeout ht h, statusCompletion_fault
        (s := atEnd s.pins (max s.now due) s.memory s.freeIndex s) hw ha⟩

/-- The write that an entry to NORMAL lets pass through: its request waits behind the access in progress
(R38, R42). -/
theorem hostModeChanged_passes {z : State} {acc : PortAccess} {a : Addr} {b : Byte} {st : Stage}
    (hm : z.control.mode = .normal) (hr : z.descriptor.reading = false) (hl : inStatusLine a = false)
    (hpol : inWindow a = true ∨ (z.config.lookup (lineOf a)).1 ≠ .readonly)
    (hacc : z.host.access = some ⟨.write a b, st, false⟩)
    (hst : st = .waiting .closing ∨ st = .stalled .block) (ho : z.host.orphan = false)
    (hp : z.port.access = some acc) : hostModeChanged z = { z with
      host := { z.host with
        access := some ⟨.write a b, .onPort, false⟩
        stallTimer := if st = .stalled .block then none else z.host.stallTimer }
      port := { z.port with waiting := z.port.waiting.put .host (some (.write a b)) } } := by
  rcases hst with rfl | rfl
  · have hpass : (inWindow a = false ∧ (z.config.lookup (lineOf a)).1 ≠ .readonly) ∨
        (inWindow a = true ∧ inStatusLine a = false) := by
      cases hw : inWindow a with
      | true => exact .inr ⟨rfl, hl⟩
      | false => exact .inl ⟨rfl, hpol.resolve_left (by simp [hw])⟩
    have hdec : hostModeChanged z = decideAnew z := by
      rw [hostModeChanged, hacc]
      exact if_pos (by rw [hm]; decide)
    rw [hdec, decideAnew_write ⟨_, hacc⟩, decideWrite_normal b hm hr hpass, passThrough,
      hostRequest_busy ho hacc hp, if_neg (by decide)]
    rfl
  · have hdec : hostModeChanged z = passThrough a b (stopStall z) := by
      rw [hostModeChanged, hacc]
      exact if_pos hm
    rw [hdec, passThrough, hostRequest_busy (s := stopStall z) ho hacc hp, if_pos rfl]
    rfl

/-- The end of the FINAL write lets the write in a CLOSING wait or a BLOCK stall pass through (R42, R67). -/
theorem finalEnd_passesWrite {s : State} {a : Addr} {b : Byte} {st : Stage} {n : Offset} {op : BusOp}
    {fault : Bool} (hr : s.descriptor.reading = false) (hl : inStatusLine a = false)
    (hpol : inWindow a = true ∨ (s.config.lookup (lineOf a)).1 ≠ .readonly)
    (he : s.engine.awaited = .nothing) (hacc : s.host.access = some ⟨.write a b, st, false⟩)
    (hm : s.control.mode = .closing) (hc : s.control.awaited = some ⟨.final, true⟩)
    (hst : st = .waiting .closing ∨ st = .stalled .block) (ho : s.host.orphan = false)
    (h : s.port.access = some ⟨.status, op, .busyWatch⟩)
    (hw : s.port.waiting = ⟨none, none, none, none⟩) (ht : s.port.timeout ≠ none)
    (hwr : s.writer.state = .writing n) (ha : s.writer.abandoned = false)
    (hpend : s.writer.pending = false) (hn : fault = false → n = 15#4) :
    ∃ t, exec (if fault then .writeTimeout else .mrdyReady) s = .next t ∧
      t.control.mode = .normal ∧ t.queue = s.queue ∧
      t.host = { s.host with
        access := some ⟨.write a b, .onPort, false⟩
        stallTimer := if st = .stalled .block then none else s.host.stallTimer } ∧
      t.port.access.map (fun acc => (acc.requester, acc.op)) = some (.host, .write a b) ∧
      t.status.deferred = s.status.deferred := by
  obtain ⟨p, now, m, k, x, hexec, hd⟩ := exec_watchedEnd h (.inl ht) hwr ha hn
  let z : State := normalEntered (writeRecorded fault (atEnd p now m k s))
  have hended : awaitedEnded .final (writeRecorded fault (atEnd p now m k s)) = hostModeChanged z := by
    simp only [awaitedEnded, show (writeRecorded fault (atEnd p now m k s)).control.mode = _ from hm]
    rfl
  have hpass := hostModeChanged_passes (z := z) rfl hr hl hpol hacc hst ho h
  have hends : recordedEnds (writeRecorded fault (atEnd p now m k s)) = hostModeChanged z := by
    rw [recordedEnds_awaited (s := writeRecorded fault (atEnd p now m k s))
      (by show s.control.mode ≠ .startup; rw [hm]; decide) hc he, hended, hpass]
    exact beginPending_none hpend
  rw [hends, hpass] at hd
  obtain ⟨hhost, hqueue, hcontrol, -, hstatus, -⟩ := endAccess_delivered hd
  have hgrant := endAccess_access hd (r := .host) (op := .write a b)
    (congrArg (fun w : Waiting => w.put .host (some (.write a b))) hw) rfl
  refine ⟨_, hexec, ?_, ?_, hhost, hgrant, ?_⟩
  · rw [hcontrol]
    rfl
  · rw [hqueue]
    rfl
  · rw [hstatus]
    rfl

/-! ### The end of start-up (R168, R169) -/

/-- The first working mode as the access in progress finds it, the HELD write's request waiting behind the
write that ends (R168). -/
def firstMode (s : State) : State :=
  if s.control.hreq then statusBegun (startedEntering s) else startedNormal s

theorem chooseFirstMode_changes {s : State} {acc : PortAccess} (hi : s.writer.state = .idle)
    (hp : s.port.access = some acc) : chooseFirstMode s = hostModeChanged (firstMode s) := by
  unfold chooseFirstMode firstMode
  dsimp only
  split
  · rw [← requestStatusWrite_busy (s := startedEntering s) (acc := acc)
      (show Mode.entering ≠ .hold by decide) hi hp]
    rfl
  · rfl

/-- The start-up write's done end with nobody awaiting it and no write pending (R168). -/
theorem exec_startWriteEnd {s : State} {op : BusOp} (hm : s.control.mode = .startup)
    (hstep : s.sequencer.step = .startWrite) (hc : s.control.awaited = none)
    (he : s.engine.awaited = .nothing) (h : s.port.access = some ⟨.status, op, .busyWatch⟩)
    (hwr : s.writer.state = .writing 15#4) (ha : s.writer.abandoned = false)
    (hpend : s.writer.pending = false) :
    ∃ p now m k x, exec .mrdyReady s = .next (endAccess ⟨.status, op, .busyWatch⟩ .done x) ∧
      deliver ⟨.status, op, .busyWatch⟩ .done (completed ⟨.status, op, .busyWatch⟩ .done x) =
        hostModeChanged (firstMode (writeRecorded false (atEnd p now m k s))) := by
  obtain ⟨p, now, m, k, x, hexec, hd⟩ := exec_watchedEnd h (.inr rfl) hwr ha fun _ => rfl
  let u : State := writeRecorded false (atEnd p now m k s)
  have hquiet : beginPending (reportEnd u) = u := by
    rw [reportEnd_nobody (s := u) (by rw [show u.control.awaited = _ from hc]; simp)
      (by rw [show u.engine.awaited = _ from he]; decide)]
    exact beginPending_none hpend
  refine ⟨p, now, m, k, x, hexec, hd.trans ?_⟩
  rw [recordedEnds, if_pos ⟨hm, hstep⟩, hquiet]
  exact chooseFirstMode_changes rfl h

theorem ackMeetsEntry_names {a : Addr} {b : Byte} {z : State} (h : ackMeetsEntry (.write a b) z = true) :
    z.control.mode ≠ .normal ∧ b.getLsbD 0 = true := by
  unfold ackMeetsEntry at h
  split at h
  · next a' b' hop hm =>
    cases hop
    exact ⟨by rw [hm]; decide, (Bool.and_eq_true_iff.1 h).2⟩
  · next a' b' hop hm =>
    cases hop
    exact ⟨by rw [hm]; decide, (Bool.and_eq_true_iff.1 h).2⟩
  · cases h

/-- An ack byte handed over at the end of start-up: the causes it names are cleared, but HOLD_ENTERED may
be set after it where the entry's notice meets it (R126, R136, log 32). -/
theorem handOverAtStart_causes {z : State} (b : Byte) (hm : z.control.mode ≠ .startup) :
    (∀ k < 8, 0 < k ∨ z.control.mode = .normal →
      (handOverAtStart (.write ackAddr b) z).status.causes.getLsbD k =
        (z.status.causes.getLsbD k && !b.getLsbD k)) ∧
      (b.getLsbD 0 = false → (handOverAtStart (.write ackAddr b) z).status.causes.getLsbD 0 =
        z.status.causes.getLsbD 0) := by
  have hack (y : State) (hy : y.control = z.control) :
      handOver (.write ackAddr b) y = takeAck b y := if_pos ⟨rfl, hy ▸ hm⟩
  have hbit (k : Nat) (hk : k < 8) : (z.status.causes &&& ~~~b).getLsbD k =
      (z.status.causes.getLsbD k && !b.getLsbD k) := by
    simp [hk]
  refine ⟨fun k hk hc => ?_, fun hb => ?_⟩
  · unfold handOverAtStart
    split
    · next hmeets =>
      have hpos : 0 < k := hc.resolve_right (ackMeetsEntry_names hmeets).1
      rw [hack z.takeFree rfl]
      split
      · show ((z.status.causes &&& ~~~b) ||| 0x01#8).getLsbD k = _
        rw [BitVec.getLsbD_or, hbit k hk]
        have hone : (0x01#8).getLsbD k = false := by interval_cases k <;> rfl
        rw [hone, Bool.or_false]
      · exact hbit k hk
    · rw [hack z rfl]
      exact hbit k hk
  · have hnot : ackMeetsEntry (.write ackAddr b) z = false := by
      by_contra hne
      rw [(ackMeetsEntry_names (by simpa using hne)).2] at hb
      cases hb
    rw [handOverAtStart, hnot, if_neg (by decide), hack z rfl]
    exact (hbit 0 (by decide)).trans (by rw [hb]; simp)

theorem handOverAtStart_counts (op : BusOp) (z : State) :
    decisionCounts (handOverAtStart op z) = decisionCounts z := by
  have hover (y : State) : decisionCounts (handOver op y) = decisionCounts y := by
    unfold handOver
    split
    · split <;> rfl
    · rfl
  unfold handOverAtStart
  split
  · split
    · exact hover z.takeFree
    · exact hover z.takeFree
  · exact hover z

/-- What the first working mode leaves of the start-up (R168). -/
theorem firstMode_fields (s : State) :
    (firstMode s).control.mode = (if s.control.hreq then .entering else .normal) ∧
      (firstMode s).host = s.host ∧ (firstMode s).queue = s.queue ∧
      (firstMode s).descriptor = s.descriptor ∧ (firstMode s).engine.state = s.engine.state ∧
      (firstMode s).port.access = s.port.access ∧
      decisionCounts (firstMode s) = decisionCounts s := by
  unfold firstMode
  split <;> exact ⟨rfl, rfl, rfl, rfl, rfl, rfl, rfl⟩

theorem firstMode_causes (s : State) : (∀ k < 8, 0 < k ∨ s.control.hreq = false →
      (firstMode s).status.causes.getLsbD k = s.status.causes.getLsbD k) ∧
    (s.control.hreq = true → (firstMode s).status.causes.getLsbD 0 = true) := by
  unfold firstMode
  split
  · next h =>
    refine ⟨fun k hk hc => ?_, fun _ => ?_⟩
    · have hpos : 0 < k := hc.resolve_right (by simp [h])
      have hone : (0x01#8).getLsbD k = false := by interval_cases k <;> rfl
      show (s.status.causes ||| 0x01#8).getLsbD k = _
      rw [BitVec.getLsbD_or, hone, Bool.or_false]
    · show (s.status.causes ||| 0x01#8).getLsbD 0 = true
      rw [BitVec.getLsbD_or]
      simp
  · next h => exact ⟨fun _ _ _ => rfl, fun ht => absurd ht h⟩

/-- The ack byte that waited is handed over, and then decided in the first working mode (R126, R169). -/
theorem hostModeChanged_ack {z : State} {b : Byte} (hm : z.control.mode ≠ .startup)
    (hacc : z.host.access = some ⟨.write ackAddr b, .waiting .startUp, false⟩) :
    hostModeChanged z = decideWrite ackAddr b (handOverAtStart (.write ackAddr b) z) := by
  have hdec : hostModeChanged z = decideAnew (handOverAtStart (.write ackAddr b) z) := by
    rw [hostModeChanged, hacc]
    exact if_pos hm
  rw [hdec]
  exact decideAnew_write ⟨_, by rw [(handOverAtStart_frame _ z).2.2.2.1, hacc]⟩

/-- In ENTERING the ack byte is queued, and the causes are as its hand-over left them (R13, R126). -/
theorem decideWrite_ackHeld {v : State} {b : Byte} {op : BusOp} {st : Stage}
    (hm : v.control.mode = .entering) (hr : v.descriptor.reading = false) (hq : v.queue = [])
    (he : v.engine.state = .stopped) (hacc : v.host.access = some ⟨op, st, false⟩) :
    (decideWrite ackAddr b v).status.causes = v.status.causes ∧
      (decideWrite ackAddr b v).control = v.control := by
  let y : State := { v with queue := [⟨newEntry ackAddr b, .pending⟩] }
  have hdec : decideWrite ackAddr b v = deferredDone op y :=
    (decideWrite_heldDefer (.inl hm) hr (by decide) hq he rfl).trans
      (acceptQueued_done (s := y) hacc (.inl (by decide)))
  rw [hdec]
  exact ⟨rfl, rfl⟩

/-- In NORMAL the ack byte's request waits behind the access in progress (R35, R126). -/
theorem decideWrite_ackPasses {v : State} {b : Byte} {op : BusOp} {st : Stage} {acc : PortAccess}
    (hm : v.control.mode = .normal) (hr : v.descriptor.reading = false) (ho : v.host.orphan = false)
    (hacc : v.host.access = some ⟨op, st, false⟩) (hp : v.port.access = some acc) :
    decideWrite ackAddr b v = { v with
      host := hostAt v.host op .onPort
      port := { v.port with waiting := v.port.waiting.put .host (some (.write ackAddr b)) } } := by
  rw [decideWrite_normal b hm hr (.inr ⟨by decide, by decide⟩), passThrough, hostRequest_busy ho hacc hp]

/-- The status read that waited is answered by a fresh snapshot of the first working mode (R138, R169). -/
theorem hostModeChanged_statusRead {z : State} (hm : z.control.mode ≠ .startup)
    (hacc : z.host.access = some ⟨.read 0xFFF00#20, .waiting .startUp, false⟩) :
    hostModeChanged z = { takeSnapshot z with
      host := hostAt z.host (.read 0xFFF00#20) (.answered (.data (z.shadow.byte 0#4))) } := by
  have hhand : handOverAtStart (.read 0xFFF00#20) z = z := by
    simp [handOverAtStart, ackMeetsEntry, handOver]
  have hdec : hostModeChanged z = decideAnew z := by
    rw [hostModeChanged, hacc]
    dsimp only
    rw [if_pos hm, hhand]
  have hroute : routeAccess z = { takeSnapshot z with
      host := hostAt z.host (.read 0xFFF00#20) (.answered (.data (z.shadow.byte 0#4))) } := by
    rw [routeAccess, hacc]
    dsimp only
    rw [routeRead, if_neg hm, if_pos (by decide)]
    exact answerHost_waiting (s := takeSnapshot z) _ hacc
  rw [hdec, decideAnew, hroute]
  exact settleHost_busy rfl

theorem shadow_congr {s t : State} (hc : t.control = s.control) (hst : t.status = s.status)
    (hm : t.monitor.state = s.monitor.state) (he : t.engine = s.engine) (hq : t.queue = s.queue)
    (hd : t.descriptor = s.descriptor) : t.shadow = s.shadow := by
  simp only [State.shadow, State.causes, hc, hst, hm, he, hq, hd]

theorem endAccess_monitor_state {s u : State} {acc : PortAccess} {c : Completion}
    (hd : deliver acc c (completed acc c s) = u) :
    (endAccess acc c s).monitor.state = u.monitor.state := by
  rw [endAccess_eq, hd, afterEvent_monitor_state]
  simp [idlePort]

section StartUpEnds

variable {s : State} {b : Byte} {op : BusOp} (hm : s.control.mode = .startup)
  (hstep : s.sequencer.step = .startWrite) (hc : s.control.awaited = none)
  (he : s.engine.awaited = .nothing) (h : s.port.access = some ⟨.status, op, .busyWatch⟩)
  (hwr : s.writer.state = .writing 15#4) (ha : s.writer.abandoned = false)
  (hpend : s.writer.pending = false)

include hm hstep hc he h hwr ha hpend

/-- The status read at the end of start-up. -/
theorem startUpEnd_answersRead
    (hacc : s.host.access = some ⟨.read 0xFFF00#20, .waiting .startUp, false⟩) :
    ∃ t, exec .mrdyReady s = .next t ∧
      t.control.mode = (if s.control.hreq then .entering else .normal) ∧
      t.status.snapshotValid = true ∧ t.status.snapshot = t.shadow ∧
      t.host.access = some ⟨.read 0xFFF00#20, .answered (.data (t.shadow.byte 0#4)), false⟩ := by
  obtain ⟨p, now, m, k, x, hexec, hd⟩ := exec_startWriteEnd hm hstep hc he h hwr ha hpend
  let z : State := firstMode (writeRecorded false (atEnd p now m k s))
  obtain ⟨hzm, hzh, -⟩ := firstMode_fields (writeRecorded false (atEnd p now m k s))
  have hne : z.control.mode ≠ .startup := by
    rw [show z.control.mode = _ from hzm]
    split <;> decide
  let w : State := { takeSnapshot z with
    host := hostAt z.host (.read 0xFFF00#20) (.answered (.data (z.shadow.byte 0#4))) }
  have hanswer : hostModeChanged z = w :=
    hostModeChanged_statusRead (z := z) hne (by rw [show z.host = _ from hzh]; exact hacc)
  replace hd := hd.trans hanswer
  obtain ⟨hhost, hqueue, hcontrol, hengine, hstatus, -, hdesc, -⟩ := endAccess_delivered hd
  have hshadow : (endAccess ⟨.status, op, .busyWatch⟩ .done x).shadow = z.shadow :=
    shadow_congr (s := w) hcontrol hstatus (endAccess_monitor_state hd) hengine hqueue hdesc
  refine ⟨_, hexec, ?_, ?_, ?_, ?_⟩
  · rw [hcontrol]
    exact hzm
  · rw [hstatus]
    rfl
  · rw [hstatus, hshadow]
    rfl
  · rw [hhost, hshadow]
    rfl

/-- The ack byte at the end of start-up (R126, R169). -/
theorem startUpEnd_takesAck (hr : s.descriptor.reading = false) (hq : s.queue = [])
    (hes : s.engine.state = .stopped) (ho : s.host.orphan = false)
    (hw : s.port.waiting = ⟨none, none, none, none⟩)
    (hacc : s.host.access = some ⟨.write ackAddr b, .waiting .startUp, false⟩) :
    ∃ t, exec .mrdyReady s = .next t ∧
      (∀ k < 8, 0 < k ∨ s.control.hreq = false → t.status.causes.getLsbD k =
        (s.status.causes.getLsbD k && !b.getLsbD k)) ∧
      (s.control.hreq = false → t.control.mode = .normal ∧ t.queue = [] ∧
        t.host.access = some ⟨.write ackAddr b, .onPort, false⟩ ∧
        t.port.access.map (fun acc => (acc.requester, acc.op)) = some (.host, .write ackAddr b)) ∧
      (s.control.hreq = true → (b.getLsbD 0 = false → t.status.causes.getLsbD 0 = true) ∧
        t.control.mode = .entering ∧ decidedHeld s t ackAddr b) := by
  obtain ⟨p, now, m, k, x, hexec, hd⟩ := exec_startWriteEnd hm hstep hc he h hwr ha hpend
  let u : State := writeRecorded false (atEnd p now m k s)
  let v : State := handOverAtStart (.write ackAddr b) (firstMode u)
  obtain ⟨hzm, hzh, hzq, hzd, hze, hzp, hzc⟩ := firstMode_fields u
  obtain ⟨-, -, -, hvh, hvq, hvc, -, -, hve, hvp, -, hvd, -⟩ :=
    handOverAtStart_frame (.write ackAddr b) (firstMode u)
  have hne : (firstMode u).control.mode ≠ .startup := by
    rw [hzm]
    split <;> decide
  have hvacc : v.host.access = some ⟨.write ackAddr b, .waiting .startUp, false⟩ := by
    rw [hvh, hzh]
    exact hacc
  have hvr : v.descriptor.reading = false := by
    rw [hvd, hzd]
    exact hr
  replace hd := hd.trans (hostModeChanged_ack hne (by rw [hzh]; exact hacc))
  obtain ⟨hhost, hqueue, hcontrol, -, hstatus, -, -, -, hnow⟩ := endAccess_delivered hd
  obtain ⟨hcauses, hentered⟩ := handOverAtStart_causes b hne
  obtain ⟨hfirst, hset⟩ := firstMode_causes u
  refine ⟨_, hexec, ?_⟩
  rw [hcontrol, hqueue, hhost, hstatus]
  cases hreq : s.control.hreq with
  | false =>
    have hmoved : firstMode u = startedNormal u := if_neg (by show ¬ s.control.hreq = true; simp [hreq])
    have hvm : v.control.mode = .normal := by
      rw [hvc, hmoved]
      rfl
    have hpass := decideWrite_ackPasses (b := b) hvm hvr (by rw [hvh, hzh]; exact ho) hvacc
      (by rw [hvp, hzp]; exact h)
    have hvw : v.port.waiting = ⟨none, none, none, none⟩ := by
      rw [hvp, hmoved]
      exact hw
    replace hd := hd.trans hpass
    rw [hpass]
    refine ⟨fun k hk _ => ?_, fun _ => ⟨hvm, ?_, rfl, ?_⟩, fun hf => by cases hf⟩
    · exact (hcauses k hk (.inr (by rw [hmoved]; rfl))).trans
        (congrArg (· && !b.getLsbD k) (hfirst k hk (.inr hreq)))
    · exact (hvq.trans hzq).trans hq
    · exact endAccess_access hd (r := .host) (congrArg (fun w : Waiting => w.put .host _) hvw)
        (by show gateOpen v.control.mode .host _ = true; rw [hvm]; rfl)
  | true =>
    have hvm : v.control.mode = .entering := by
      rw [hvc, hzm]
      exact if_pos hreq
    have hvq' : v.queue = [] := (hvq.trans hzq).trans hq
    have hves : v.engine.state = .stopped := by
      rw [hve, hze]
      exact hes
    obtain ⟨hdcauses, hdcontrol⟩ := decideWrite_ackHeld (b := b) hvm hvr hvq' hves hvacc
    have happ : s.descriptor.applied = v.descriptor.applied := by
      rw [hvd, hzd]
      rfl
    have hcounts : decisionCounts s = decisionCounts v := by
      rw [handOverAtStart_counts, hzc]
      rfl
    have hdecided := decideWrite_held (.inl hvm) hvr (by decide) ⟨_, hvacc⟩ hvq' hves (a := ackAddr)
      (b := b)
    rw [hdcauses, hdcontrol]
    refine ⟨fun k hk hc => ?_, fun hf => (by cases hf), fun _ => ⟨fun hb => ?_, hvm,
      decidedHeld_congr ⟨happ, hcounts⟩ ⟨hqueue, hhost, hstatus, hnow⟩ hdecided⟩⟩
    · have hpos : 0 < k := hc.resolve_right (by simp)
      exact (hcauses k hk (.inl hpos)).trans
        (congrArg (· && !b.getLsbD k) (hfirst k hk (.inl hpos)))
    · exact (hentered hb).trans (hset hreq)

end StartUpEnds

/-- Settles O35. -/
theorem modeChangeMovesHostAccess : Obligations.ModeChangeMovesHostAccess := by
  intro s a b st hpor hr hl hpol hq hes he hacc
  refine ⟨fun c m hc hst => ?_, fun n op c hm hc hst ho h hw ht hwr ha hpend hend => ?_,
    fun hm hstep hc ⟨op, h⟩ hw ho hwr ha hpend hst => ⟨?_, ?_⟩⟩
  · obtain ⟨z, hz, hexec⟩ := entry_decidesWrite hpor hq hes hc hst
    have hstage : st = .waiting .closing ∨ st = .onPort ∧ s.port.waiting.host = some (.write a b) :=
      hst.imp (·.2) (·.2)
    obtain ⟨hmode, hport, hdec⟩ := afterEvent_heldEntry hr hl hacc hstage hz s.control.mode
    refine ⟨_, hexec, hmode, fun hn => hport ?_, hdec⟩
    rcases hst with ⟨hm, -⟩ | ⟨-, hon, -⟩
    · rw [hm] at hn
      cases hn
    · exact hon
  · rw [← hq]
    rcases hend with rfl | ⟨rfl, hn⟩
    · exact finalEnd_passesWrite (fault := true) hr hl hpol he hacc hm hc hst ho h hw ht hwr ha hpend
        (fun hf => by cases hf)
    · exact finalEnd_passesWrite (fault := false) hr hl hpol he hacc hm hc hst ho h hw ht hwr ha hpend
        (fun _ => hn)
  · rintro rfl
    rw [hst] at hacc
    exact startUpEnd_takesAck hm hstep hc he h hwr ha hpend hr hq hes ho hw hacc
  · rintro u rfl
    exact startUpEnd_answersRead (s := { s with host := _ }) hm hstep hc he h hwr ha hpend rfl

end Sys2Proof.Machine

/-! ## The class that a sample reports (R70, R83)

A sample reports its class to the drain engine before the mode controller takes its event. Only a class report
replaces the last class, so whatever the event does, it is the sample's. -/

namespace Sys2Proof.Machine

open Sys2Proof

set_option Elab.async false

/-! ### The bands of Table 4-1 -/

/-- Table 4-1, row by row. -/
theorem warningLevel_table : ∀ code : BitVec 3,
    [2800, 2850, 2900, 2950, 3000, 3050, 3100, 3150].getD code.toNat 0 = warningLevel code := by
  decide

/-- Every warning level lies above the hold level (R70). -/
theorem holdLevel_lt_warningLevel (code : BitVec 3) : 2700 < warningLevel code := by
  unfold warningLevel
  omega

theorem classOf_marginal {code : BitVec 3} {v : Nat} :
    classOf code v = .marginal ↔ 2700 ≤ v ∧ v < warningLevel code := by
  unfold classOf holdLevel
  split
  · next h => simp [h]
  · next h =>
    split
    · next hw => simp [hw, Nat.le_of_not_lt h]
    · next hw => simp [hw]

theorem classOf_good {code : BitVec 3} {v : Nat} :
    classOf code v = .good ↔ warningLevel code ≤ v := by
  have habove := holdLevel_lt_warningLevel code
  unfold classOf holdLevel
  split
  · next h => exact iff_of_false (by decide) (by omega)
  · split
    all_goals next hw => simpa using hw

/-! ### What leaves the last class -/

section LastClass

variable (s : State)

@[simp] theorem stopEngine_lastClass : (stopEngine s).engine.lastClass = s.engine.lastClass := by
  unfold stopEngine
  split
  case h_3 => split <;> rfl
  all_goals rfl

@[simp] theorem leaveDrain_lastClass (m : Mode) :
    (leaveDrain m s).engine.lastClass = s.engine.lastClass := by
  unfold leaveDrain
  split
  · exact stopEngine_lastClass s
  · rfl

@[simp] theorem requestStatusWrite_lastClass :
    (requestStatusWrite s).engine.lastClass = s.engine.lastClass := by
  rcases requestStatusWrite_cases s with ⟨-, h⟩ | ⟨-, -, h⟩ | ⟨-, -, h⟩
  · rw [h]
  · rw [h, beginStatusWrite]; simp
  · rw [h]

@[simp] theorem hostModeChanged_lastClass :
    (hostModeChanged s).engine.lastClass = s.engine.lastClass :=
  congrArg (fun k => k.engine.lastClass) (hostModeChanged_kept s)

@[simp] theorem enterHold_lastClass : (enterHold s).engine.lastClass = s.engine.lastClass := by
  simp [enterHold]

@[simp] theorem enterDrain_lastClass : (enterDrain s).engine.lastClass = s.engine.lastClass := by
  simp [enterDrain]

@[simp] theorem enterClosing_lastClass : (enterClosing s).engine.lastClass = s.engine.lastClass := by
  simp [enterClosing]

@[simp] theorem evaluateExit_lastClass : (evaluateExit s).engine.lastClass = s.engine.lastClass := by
  unfold evaluateExit
  split
  · split
    · exact enterClosing_lastClass s
    · exact enterDrain_lastClass s
  · rfl

@[simp] theorem followMonitor_lastClass :
    (followMonitor s).engine.lastClass = s.engine.lastClass := by
  simp [followMonitor]

theorem takeTrip_lastClass : (takeTrip s).engine.lastClass = s.engine.lastClass := by
  unfold takeTrip
  split <;> simp [beginHold]

/-- No event of a sample replaces the last class (R77, R83). -/
theorem takeSupplyEvent_lastClass (e : SupplyEvent) :
    (takeSupplyEvent e s).engine.lastClass = s.engine.lastClass := by
  cases e with
  | nothing => rfl
  | warn =>
    show (takeWarn s).engine.lastClass = _
    unfold takeWarn
    split <;> simp
  | clear =>
    show (takeClear s).engine.lastClass = _
    unfold takeClear
    split <;> simp
  | trip => exact takeTrip_lastClass s
  | warnTrip => exact takeTrip_lastClass s

end LastClass

theorem measured_lastClass (v due : Nat) (s : State) :
    (measured v due s).engine.lastClass = classOf s.config.warningCode v :=
  engineClass_lastClass _ _

/-- After SAMPLE the last class is the sample's, under the warning code in force before it (R70, R83). -/
theorem exec_sample_lastClass {s : State} (v : Nat) (h : s.monitor.timer ≠ none) :
    ∃ t, exec (.sample v) s = .next t ∧ t.engine.lastClass = classOf s.config.warningCode v := by
  obtain ⟨timer, ht⟩ := Option.ne_none_iff_exists'.1 h
  refine ⟨_, exec_sample v ht, ?_⟩
  simp only [afterEvent_frame]
  rw [takeSupplyEvent_lastClass, measured_lastClass]

/-- Settles O36: the last class after the sample is `classOf` of it, whose three bands Table 4-1 bounds. -/
theorem sampleClassByLevels : Obligations.SampleClassByLevels := by
  unfold Obligations.SampleClassByLevels
  intro level
  have hlevel : ∀ code, level code = warningLevel code := warningLevel_table
  simp only [hlevel]
  refine ⟨holdLevel_lt_warningLevel, by decide, by decide, by decide, fun s v ht => ?_⟩
  obtain ⟨t, hexec, hclass⟩ := exec_sample_lastClass v ht
  refine ⟨t, hexec, ?_⟩
  rw [hclass]
  exact ⟨classOf_low, classOf_marginal, classOf_good⟩

end Sys2Proof.Machine
